-- ==== Sys2Proof/Word.lean ====
section
/-! DEFINITION. The two bit-vector widths of the PLC and nothing else (`spec/00_scope.md` R8, R14). Sizes, addresses
and cursors are natural numbers (R15: "arithmetic on natural numbers without wrap, used for cursors and sizes"). -/

namespace Sys2Proof

/-- One byte, bits 7 to 0 (R8 "byte width", R14). -/
abbrev Byte := BitVec 8

/-- A 16-bit value: LFSR state, key, checksum (R8, R14). -/
abbrev Word := BitVec 16

end Sys2Proof
end

