-- ==== Sys2Proof/Config.lean ====
section
/-! DEFINITION. What the spec leaves to the implementation (the address width `AW`, R8) and the free values, which no
proof can evaluate (`spec/93_implementation_defined.md` U1 to U5; assumption log 3, 4, 7). -/

namespace Sys2Proof.Config

/-- How many bits `AW` has beyond the least the spec allows. R8 leaves `AW` OPEN with `AW >= 5`; it is free here. -/
opaque spareAddressBits : Nat

/-- R8: `AW`, the width of an address and of every size register; at least 5. -/
def aw : Nat := 5 + spareAddressBits

/-- R60: the number of cells of MEM, `2^AW`. -/
def space : Nat := 2 ^ aw

/-- `n <= 2^AW`, that is, the addresses `0` to `n - 1` all exist (R60, R64). The first test decides it alone for
`n <= 32`, where `AW >= 5` already answers, so that small addresses can be evaluated although `AW` is free;
`Sys2Proof.Laws.inSpace_iff` proves that the whole says `n <= 2^AW`. -/
def inSpace (n : Nat) : Bool := decide (n ≤ 32) || decide (n ≤ space)

/-- U1, U3, U4: the free value of a one-bit register; arguments: the draw and the register's number in R20's table. -/
opaque freeBit : Nat → Nat → Bool

/-- U1, U2, U3: the free value of a DICT entry; arguments: the draw and the entry's index. -/
opaque freeDict : Nat → Nat → Byte

/-- U3, U5: the free value of a MEM cell that nothing has written; arguments: the draw and the address. -/
opaque freeMem : Nat → Nat → Byte

/-- U1, U2, U3: the free value of a 16-bit register; arguments: the draw and the register's number in R20's table. -/
opaque freeWord : Nat → Nat → Word

/-- The number `freeSize` is made from. -/
opaque freeNat : Nat → Nat → Nat

/-- U1, U3: the free value of an `AW`-bit register, cut to its width; arguments as for `freeWord`. -/
def freeSize (draw reg : Nat) : Nat := freeNat draw reg % space

end Sys2Proof.Config
end

