-- ==== Sys2Proof/Syntax.lean ====
section
/-! DEFINITION. The whole syntax: the container header, the rows of `spec/opcode_table.json` as `Instr`, the registers
of R20's table, and the host's actions of R190. -/

namespace Sys2Proof

/-- The container header of R91, apart from its constant magic and version. The compressed flag `c` is the presence
of the dictionary, the checksummed flag `k` the presence of the checksum value, so that a header whose flags and
fields disagree cannot be written down. `unused` is bits 4 to 0 of the flags byte (R94: "not stored" by PARSE). -/
structure Header where
  enc    : Bool
  unused : BitVec 5
  dict   : Option (Vector Byte 16)
  cksum  : Option Word
deriving DecidableEq, Repr

/-- R94: the compressed flag. -/
def Header.comp (h : Header) : Bool := h.dict.isSome

/-- R94: the checksummed flag. -/
def Header.csum (h : Header) : Bool := h.cksum.isSome

/-- One constructor per row of the opcode table. The five commands and the three reserved codes are values of CMD
(R96, R102) and take their operands from registers; the four tokens are the units of the compressed stream (R97);
`header` is the format PARSE decodes (R91). -/
inductive Instr where
  | parse
  | cksum
  | step
  | decrypt
  | decomp
  | reserved000
  | reserved110
  | reserved111
  | lit (b : Byte)
  | esclit
  | run (count index : BitVec 4)
  | esceof
  | header (h : Header)
deriving DecidableEq, Repr

/-- The tokens of the compressed stream alone (R97): what the stream decoder of R98 answers. -/
inductive Token where
  | lit (b : Byte)
  | esclit
  | run (count index : BitVec 4)
  | esceof
deriving DecidableEq, Repr

/-- A token as the instruction of the opcode table it is. -/
def Token.toInstr : Token → Instr
  | .lit b => .lit b
  | .esclit => .esclit
  | .run c n => .run c n
  | .esceof => .esceof

/-- R90: the three encodings an instruction of the table can stand in. The same byte means different things in each. -/
inductive Space where
  | command
  | stream
  | header
deriving DecidableEq, Repr

/-- Which of the encodings of R90 a row belongs to (the table's "format": CMD, TOK1 and TOK2, HDR). -/
def Instr.space : Instr → Space
  | .parse => .command
  | .cksum => .command
  | .step => .command
  | .decrypt => .command
  | .decomp => .command
  | .reserved000 => .command
  | .reserved110 => .command
  | .reserved111 => .command
  | .lit _ => .stream
  | .esclit => .stream
  | .run _ _ => .stream
  | .esceof => .stream
  | .header _ => .header

/-- The table's length in bytes: a command code stands in one byte, a token is one or two bytes (R97), a header is
`4 + 16*c + 2*k` bytes (R91). -/
def Instr.length : Instr → Nat
  | .parse => 1
  | .cksum => 1
  | .step => 1
  | .decrypt => 1
  | .decomp => 1
  | .reserved000 => 1
  | .reserved110 => 1
  | .reserved111 => 1
  | .lit _ => 1
  | .esclit => 2
  | .run _ _ => 2
  | .esceof => 1
  | .header h => 4 + 16 * h.comp.toNat + 2 * h.csum.toNat

/-- The registers of R20's table. -/
inductive Reg where
  | cmd
  | key
  | lfsr
  | sum
  | src
  | len
  | dst
  | cap
  | rlen
  | valid
  | comp
  | enc
  | csum
  | ckval
  | hlen
  | rej
  | ckmatch
  | dict (i : BitVec 4)
deriving DecidableEq, Repr

/-- R20: the register's number, a label only. -/
def Reg.number : Reg → Nat
  | .cmd => 0
  | .key => 1
  | .lfsr => 2
  | .sum => 3
  | .src => 4
  | .len => 5
  | .dst => 6
  | .cap => 7
  | .rlen => 8
  | .valid => 9
  | .comp => 10
  | .enc => 11
  | .csum => 12
  | .ckval => 13
  | .hlen => 14
  | .rej => 15
  | .ckmatch => 16
  | .dict i => 17 + i.toNat

/-- R20: the register's width in bits. -/
def Reg.width : Reg → Nat
  | .cmd => 3
  | .key => 16
  | .lfsr => 16
  | .sum => 16
  | .src => Config.aw
  | .len => Config.aw
  | .dst => Config.aw
  | .cap => Config.aw
  | .rlen => Config.aw
  | .valid => 1
  | .comp => 1
  | .enc => 1
  | .csum => 1
  | .ckval => 16
  | .hlen => Config.aw
  | .rej => 3
  | .ckmatch => 1
  | .dict _ => 8

/-- R190: the host's five kinds of action. `issue c` is `writeReg .cmd c` under its own name, as R190 has it. -/
inductive HostAction where
  | writeReg (r : Reg) (v : Nat)
  | readReg (r : Reg)
  | writeMem (a : Nat) (b : Byte)
  | readMem (a : Nat)
  | issue (c : BitVec 3)
deriving DecidableEq, Repr

/-- What can come to the block from outside: an action of the host (R190) or a reset (R240). -/
inductive Event where
  | act (a : HostAction)
  | reset
deriving DecidableEq, Repr

end Sys2Proof
end

