-- ==== Sys2Proof/WellFormed.lean ====
section
/-! DEFINITION. The constraints of the opcode table that the types do not carry (R97), the host's access rights
(R38, R191), and when a host action is defined (R190). -/

namespace Sys2Proof

/-- R97, the table's "constraint": a LIT byte is not `0x07`; the second byte of a RUN is not `0x00`. Every other
instruction is well-formed as its type has it. -/
def Instr.wf : Instr → Bool
  | .lit b => b != 0x07#8
  | .run c n => !(c == 0#4 && n == 0#4)
  | .parse => true
  | .cksum => true
  | .step => true
  | .decrypt => true
  | .decomp => true
  | .reserved000 => true
  | .reserved110 => true
  | .reserved111 => true
  | .esclit => true
  | .esceof => true
  | .header _ => true

/-- R20 "host W", R38, R191: the registers a host write reaches. A write to CMD issues a command. -/
def Reg.hostWrites : Reg → Bool
  | .cmd => true
  | .key => true
  | .lfsr => true
  | .src => true
  | .len => true
  | .dst => true
  | .cap => true
  | .dict _ => true
  | .sum => false
  | .rlen => false
  | .valid => false
  | .comp => false
  | .enc => false
  | .csum => false
  | .ckval => false
  | .hlen => false
  | .rej => false
  | .ckmatch => false

/-- R20 "host R", R38: every register but CMD can be read by the host. -/
def Reg.hostReads (r : Reg) : Bool := r != .cmd

/-- R190: "`v` fits `r`'s width", that is, `v < 2^width`. For an `AW`-bit register the test is `Config.inSpace`. -/
def Reg.fits (r : Reg) (v : Nat) : Bool :=
  match r with
  | .src | .len | .dst | .cap | .rlen | .hlen => Config.inSpace (v + 1)
  | .cmd | .rej => decide (v < 8)
  | .valid | .comp | .enc | .csum | .ckmatch => decide (v < 2)
  | .key | .lfsr | .sum | .ckval => decide (v < 65536)
  | .dict _ => decide (v < 256)

/-- R96, R102: the five command codes. -/
def isCommandCode (v : Nat) : Bool := decide (1 ≤ v) && decide (v ≤ 5)

/-- R190, column "defined when", as far as the action alone decides it (launch premises are the command's). A write to
CMD is the issue of a command under another name. -/
def HostAction.wf : HostAction → Bool
  | .writeReg r v => r.hostWrites && r.fits v && (r != .cmd || isCommandCode v)
  | .readReg r => r.hostReads
  | .writeMem a _ => Config.inSpace (a + 1)
  | .readMem a => Config.inSpace (a + 1)
  | .issue c => isCommandCode c.toNat

end Sys2Proof
end

