-- ==== Sys2Proof/Decode.lean ====
section
/-! DEFINITION. The bit-field helpers, the three decoders (command code R96, stream token R98, header R91), the
encoder written from the same tables, and the host's view of a table word. -/

namespace Sys2Proof

/-! ## Fields -/

/-- `v[7:0]` of a 16-bit value (R15). -/
def lowByte (v : Word) : Byte := v.extractLsb' 0 8

/-- `v[15:8]` of a 16-bit value (R15). -/
def highByte (v : Word) : Byte := v.extractLsb' 8 8

/-- `{hi8, lo8}` (R15): the high byte first, as every multi-byte header field is stored (R66 a, R95). -/
def wordOf (hi lo : Byte) : Word := hi ++ lo

/-- R99: the high nibble of a RUN's second byte, the count. -/
def highNibble (b : Byte) : BitVec 4 := b.extractLsb' 4 4

/-- R99: the low nibble of a RUN's second byte, the index. -/
def lowNibble (b : Byte) : BitVec 4 := b.extractLsb' 0 4

/-- R99: the second byte of a RUN from its two nibbles, count high. -/
def runByte (count index : BitVec 4) : Byte := count ++ index

/-- R94: the flags byte `cekuuuuu`. -/
def flagsByte (c e k : Bool) (u : BitVec 5) : Byte :=
  BitVec.ofBool c ++ BitVec.ofBool e ++ BitVec.ofBool k ++ u

/-- R94: bit 7 of the flags byte, compressed. -/
def flagComp (f : Byte) : Bool := f.getLsbD 7

/-- R94: bit 6 of the flags byte, encrypted. -/
def flagEnc (f : Byte) : Bool := f.getLsbD 6

/-- R94: bit 5 of the flags byte, checksummed. -/
def flagCsum (f : Byte) : Bool := f.getLsbD 5

/-- R94: bits 4 to 0 of the flags byte, unused. -/
def flagUnused (f : Byte) : BitVec 5 := f.extractLsb' 0 5

/-- A file of sixteen entries, entry `i` being `f i` (R27: DICT and the header's dictionary). -/
def table16 {α : Type} (f : Nat → α) : Vector α 16 := ⟨⟨(List.range 16).map f⟩, by simp⟩

/-! ## Command codes -/

/-- R96, R102: the command a 3-bit code selects; the reserved codes are rows of their own. -/
def decodeCommand (c : BitVec 3) : Instr :=
  if c = 1#3 then .parse
  else if c = 2#3 then .cksum
  else if c = 3#3 then .step
  else if c = 4#3 then .decrypt
  else if c = 5#3 then .decomp
  else if c = 6#3 then .reserved110
  else if c = 7#3 then .reserved111
  else .reserved000

/-! ## Stream tokens -/

/-- R98: the token at the front of the rest of the input region, and the rest after it. `none` only where no byte is
left. The second byte of a pair is never looked at as an escape. -/
def decodeToken : List Byte → Option (Token × List Byte)
  | [] => none
  | b :: rest =>
    if b = 0x07#8 then
      match rest with
      | [] => some (.esceof, [])
      | B :: rest' =>
        if B = 0x00#8 then some (.esclit, rest')
        else some (.run (highNibble B) (lowNibble B), rest')
    else some (.lit b, rest)

/-! ## The header -/

/-- R212: which check of the header failed. -/
inductive HeaderReject where
  | tooShort
  | badMagic
  | badVersion
  | dictTruncated
  | cksumTruncated
deriving DecidableEq, Repr

/-- R212: the cause code put into REJ. -/
def HeaderReject.code : HeaderReject → BitVec 3
  | .tooShort => 1#3
  | .badMagic => 2#3
  | .badVersion => 3#3
  | .dictTruncated => 4#3
  | .cksumTruncated => 5#3

/-- R125: the dictionary field behind the flags byte, present only if `c`; `none` if it is truncated. -/
def takeDict (c : Bool) (bs : List Byte) : Option (Option (Vector Byte 16) × List Byte) :=
  if c then
    if bs.length < 16 then none
    else some (some (table16 fun i => bs.getD i 0#8), bs.drop 16)
  else some (none, bs)

/-- R126: the checksum field behind the dictionary, present only if `k`, high byte first; `none` if it is truncated. -/
def takeCksum (k : Bool) (bs : List Byte) : Option (Option Word × List Byte) :=
  if k then
    match bs with
    | hi :: lo :: rest => some (some (wordOf hi lo), rest)
    | _ => none
  else some (none, bs)

/-- R121 to R127, the checks in their order (R216): the header at the front of the input and the bytes behind it (the
payload), or the first check that fails. -/
def decodeHeader (bs : List Byte) : Except HeaderReject (Header × List Byte) :=
  match bs with
  | m0 :: m1 :: v :: f :: rest =>
    if m0 = 0x02#8 ∧ m1 = 0x13#8 then
      if v = 0x01#8 then
        match takeDict (flagComp f) rest with
        | none => .error .dictTruncated
        | some (d, rest') =>
          match takeCksum (flagCsum f) rest' with
          | none => .error .cksumTruncated
          | some (k, payload) => .ok (⟨flagEnc f, flagUnused f, d, k⟩, payload)
      else .error .badVersion
    else .error .badMagic
  | _ => .error .tooShort

/-! ## All three as one decoder -/

/-- Why bytes are no instruction of an encoding. -/
inductive DecodeError where
  /-- There is no byte to read. -/
  | noBytes
  /-- The byte is no 3-bit command code (R96). -/
  | codeTooWide
  /-- The header is rejected (R130). -/
  | header (r : HeaderReject)
deriving DecidableEq, Repr

/-- Decoding in one of the encodings of R90: the instruction at the front of the bytes and the bytes after it. -/
def decode (sp : Space) (bs : List Byte) : Except DecodeError (Instr × List Byte) :=
  match sp with
  | .command =>
    match bs with
    | [] => .error .noBytes
    | b :: rest => if b.toNat < 8 then .ok (decodeCommand (b.setWidth 3), rest) else .error .codeTooWide
  | .stream =>
    match decodeToken bs with
    | none => .error .noBytes
    | some (t, rest) => .ok (t.toInstr, rest)
  | .header =>
    match decodeHeader bs with
    | .error r => .error (.header r)
    | .ok (h, rest) => .ok (.header h, rest)

/-! ## The encoder -/

/-- R91: the bytes of the dictionary field. -/
def encodeDict : Option (Vector Byte 16) → List Byte
  | none => []
  | some d => d.toList

/-- R95: the bytes of the checksum field, high byte first. -/
def encodeCksum : Option Word → List Byte
  | none => []
  | some k => [highByte k, lowByte k]

/-- R91: the bytes of a header. -/
def encodeHeader (h : Header) : List Byte :=
  0x02#8 :: 0x13#8 :: 0x01#8 :: flagsByte h.comp h.enc h.csum h.unused ::
    (encodeDict h.dict ++ encodeCksum h.cksum)

/-- The bytes of an instruction in its own encoding (R91, R96, R97). A command code stands in the low three bits of
one byte. -/
def encode : Instr → List Byte
  | .reserved000 => [0#8]
  | .parse => [1#8]
  | .cksum => [2#8]
  | .step => [3#8]
  | .decrypt => [4#8]
  | .decomp => [5#8]
  | .reserved110 => [6#8]
  | .reserved111 => [7#8]
  | .lit b => [b]
  | .esclit => [0x07#8, 0x00#8]
  | .run c n => [0x07#8, runByte c n]
  | .esceof => [0x07#8]
  | .header h => encodeHeader h

/-! ## Words of the opcode table -/

/-- Where the instruction of a table word stands: in CMD, in the compressed stream, or as a header at SRC. -/
inductive TableWord where
  | command (code : BitVec 3)
  | stream (bytes : List Byte)
  | header (bytes : List Byte)
deriving DecidableEq, Repr

/-- The bytes of a table word of `n` bytes, the first stream byte in its highest bits, as the table's notes number
them ("first stream byte in bits 15:8", "big-endian (byte 0 in bits 31:24)"). -/
def tableBytes : Nat → Nat → List Byte
  | 0, _ => []
  | n + 1, w => BitVec.ofNat 8 (w / 2 ^ (8 * n)) :: tableBytes n w

/-- A table word by its width. Up to 8 bits the CMD rows (3 bits) and the one-byte tokens share words: there the row
that fixes the most bits is taken (ESCEOF's mask is `0xFF`, a CMD row's `0x7`, LIT's `0x00`; assumption log 10).
A header's word is its first four bytes; the bytes it may have behind them are zeros. -/
def tableWord (nbits w : Nat) : Option TableWord :=
  if nbits = 0 then none
  else if nbits < 8 then
    if w < 8 then some (.command (BitVec.ofNat 3 w)) else none
  else if nbits = 8 then
    if w = 7 then some (.stream [0x07#8])
    else if w < 8 then some (.command (BitVec.ofNat 3 w))
    else if w < 256 then some (.stream [BitVec.ofNat 8 w])
    else none
  else if nbits = 16 then some (.stream (tableBytes 2 w))
  else if nbits = 32 then some (.header (tableBytes 4 w ++ List.replicate 18 0#8))
  else none

/-- The instruction the decoder reads from a table word. -/
def decodeTableWord (nbits w : Nat) : Option Instr :=
  match tableWord nbits w with
  | none => none
  | some (.command c) => some (decodeCommand c)
  | some (.stream bs) =>
    match decodeToken bs with
    | none => none
    | some (t, _) => some t.toInstr
  | some (.header bs) =>
    match decodeHeader bs with
    | .error _ => none
    | .ok (h, _) => some (.header h)

end Sys2Proof
end

