-- ==== Sys2Proof/Machine/State.lean ====
section
/-! DEFINITION. The state of one PLC and its host port as plain data, the reset state, and the reasons a step can stop
(`spec/10_state.md` R20 to R44). -/

namespace Sys2Proof.Machine

/-- A register that can be `unspecified` (R37). `known` is false while it is; neither a host read nor a command then
takes `val`, each takes a free value (U1 to U5; assumption log 3, 4 and 5). -/
structure Held (α : Type) where
  val   : α
  known : Bool
deriving DecidableEq, Repr

/-- A register that holds a value a rule or the host has written (R37: it "stops being `unspecified`"). -/
def Held.put {α : Type} (v : α) : Held α := ⟨v, true⟩

/-- A register that is `unspecified` (R37), with the value that stands behind the mark. -/
def Held.unspecified {α : Type} (v : α) : Held α := ⟨v, false⟩

/-- What a host read answers and a command takes: the value, or the free value of this draw while the register is
`unspecified` (U1 to U3: "any value on a host read, possibly different at each read"; U5). -/
def Held.observe {α : Type} (c : Held α) (free : α) : α := if c.known then c.val else free

/-- R40: the cursors of the running DECOMP. -/
structure Cursors where
  ic : Nat
  oc : Nat
deriving DecidableEq, Repr

/-- The buffer memory MEM (R60): the cells something has written, by strictly rising address. A cell that is not
listed is `unspecified` (R44). -/
abbrev Memory := List Host.Cell

/-- The canonical form: addresses strictly rising. An unlisted cell reads as no value at all, so no entry can equal
what an unlisted address reads as. -/
def Memory.wf : Memory → Bool
  | [] => true
  | [_] => true
  | (a, _) :: (b, v) :: rest => decide (a < b) && Memory.wf ((b, v) :: rest)

/-- Everything R20 gives one PLC, then the model's own fields. CMD "holds nothing between commands and cannot be read"
(R28) and CKMATCH is "not storage" (R35), so neither is a field. -/
structure State where
  /-- R21. -/
  key   : Held Word
  /-- R22. -/
  lfsr  : Held Word
  /-- R23. -/
  sum   : Held Word
  /-- R24. -/
  src   : Held Nat
  /-- R24. -/
  len   : Held Nat
  /-- R25. -/
  dst   : Held Nat
  /-- R25. -/
  cap   : Held Nat
  /-- R26. -/
  rlen  : Held Nat
  /-- R30. -/
  valid : Bool
  /-- R31. -/
  comp  : Held Bool
  /-- R31. -/
  enc   : Held Bool
  /-- R31. -/
  csum  : Held Bool
  /-- R32. -/
  ckval : Held Word
  /-- R33. -/
  hlen  : Held Nat
  /-- R34. -/
  rej   : BitVec 3
  /-- R27: DICT[0] to DICT[15]. -/
  dict  : Vector (Held Byte) 16
  /-- R60. -/
  mem   : Memory
  /-- R40: the cursors of a DECOMP in progress; none between commands. -/
  cursors : Option Cursors
  /-- The model's own: what comes from outside next (R10, R13, R190, R240), the first one first. -/
  pending : List Event
  /-- The model's own: what the host's reads have answered (R190), the last one first. -/
  answers : List Nat
  /-- The model's own: the number of the current draw of free values; every host action has a draw of its own. -/
  draws   : Nat
deriving DecidableEq, Repr

/-- R44, R240: `VALID = 0`, `REJ = 0`, every other register and every cell of MEM `unspecified`. The value behind an
`unspecified` register is zero at reset (DESIGN CHOICE, assumption log 3). -/
def State.reset : State where
  key := .unspecified 0#16
  lfsr := .unspecified 0#16
  sum := .unspecified 0#16
  src := .unspecified 0
  len := .unspecified 0
  dst := .unspecified 0
  cap := .unspecified 0
  rlen := .unspecified 0
  valid := false
  comp := .unspecified false
  enc := .unspecified false
  csum := .unspecified false
  ckval := .unspecified 0#16
  hlen := .unspecified 0
  rej := 0#3
  dict := table16 fun _ => .unspecified 0#8
  mem := []
  cursors := none
  pending := []
  answers := []
  draws := 0

/-- Why a step faults. The PLC itself has no fault (R210). -/
inductive Fault where
  /-- Raised by a host access to MEM at an address from `2^AW` on, which does not exist (R60, R190, R192). Safe: the
  machine stops where the spec defines no action. -/
  | noSuchAddress (a : Nat)
deriving DecidableEq, Repr

/-- Why a step is refused. -/
inductive Refusal where
  /-- Raised by an arm of `exec` whose instruction has no meaning yet; no arm is such an arm. Safe. -/
  | notModelled (mnemonic : String)
  /-- Raised by the reserved codes (R102, U8, premise `LegalCommand`). Safe: the spec gives the action no meaning. -/
  | reservedCommand (code : BitVec 3)
  /-- Raised by a command one of whose regions passes the top of MEM (R64, U6, `RegionsInRange`). Safe: no meaning. -/
  | regionsOutOfRange
  /-- Raised by DECRYPT and DECOMP on overlapping regions (R65, U7, `RegionsDisjoint`). Safe: no meaning. -/
  | regionsOverlap
  /-- Raised by a token while no DECOMP is running, when there is no cursor it could act at (R40). Safe: the host has
  no action that executes a token by itself (R190). -/
  | noStreamRunning
  /-- Raised by a host write to a register the host cannot write (R38, R191: "a model has none"). Safe. -/
  | notHostWritable (r : Reg)
  /-- Raised by a host read of CMD (R28, R38). Safe. -/
  | notHostReadable (r : Reg)
  /-- Raised by a host write of a value that does not fit the register (R190). Safe. -/
  | valueTooWide (r : Reg)
deriving DecidableEq, Repr

/-- The outcome of a step or of an instruction. -/
abbrev Result := Host.Outcome State Fault Refusal

end Sys2Proof.Machine
end

