-- ==== Sys2Proof/Machine/Ops.lean ====
section
/-! DEFINITION. The named operations on memory, on the register file and on the host port. The PLC has no exception,
trap or return (`spec/60_exceptions.md` R210, R217, R218); what stands in their place, the rejection of a header, is
`State.reject` (R130), and its counterpart `State.accept` (R127). -/

namespace Sys2Proof.Machine

/-! ## Memory (R60 to R62) -/

/-- R61: the byte last written at `a`; none while nothing has written it. -/
def Memory.read : Memory → Nat → Option Byte
  | [], _ => none
  | (b, v) :: rest, a => if a = b then some v else Memory.read rest a

/-- R62: `a` takes `v`; no other cell changes. -/
def Memory.write : Memory → Nat → Byte → Memory
  | [], a, v => [(a, v)]
  | (b, w) :: rest, a, v =>
    if a < b then (a, v) :: (b, w) :: rest
    else if a = b then (a, v) :: rest
    else (b, w) :: Memory.write rest a v

/-- R69: the bytes `vs` written at `a`, `a + 1`, ..., each once, in increasing order. -/
def Memory.writeBytes : Memory → Nat → List Byte → Memory
  | m, _, [] => m
  | m, a, v :: vs => Memory.writeBytes (Memory.write m a v) (a + 1) vs

/-! ## Register writes -/

/-- R21. -/
def State.setKey (s : State) (v : Held Word) : State := { s with key := v }
/-- R22. -/
def State.setLfsr (s : State) (v : Held Word) : State := { s with lfsr := v }
/-- R23. -/
def State.setSum (s : State) (v : Held Word) : State := { s with sum := v }
/-- R24. -/
def State.setSrc (s : State) (v : Held Nat) : State := { s with src := v }
/-- R24. -/
def State.setLen (s : State) (v : Held Nat) : State := { s with len := v }
/-- R25. -/
def State.setDst (s : State) (v : Held Nat) : State := { s with dst := v }
/-- R25. -/
def State.setCap (s : State) (v : Held Nat) : State := { s with cap := v }
/-- R26. -/
def State.setRlen (s : State) (v : Held Nat) : State := { s with rlen := v }
/-- R27: one DICT entry. -/
def State.setDict (s : State) (i : BitVec 4) (v : Held Byte) : State :=
  { s with dict := s.dict.set i.toNat v i.isLt }
/-- R60. -/
def State.setMem (s : State) (m : Memory) : State := { s with mem := m }
/-- R40. -/
def State.setCursors (s : State) (c : Option Cursors) : State := { s with cursors := c }

/-- What PARSE writes: the configuration record of R29 and REJ. -/
structure Record where
  valid : Bool
  rej   : BitVec 3
  comp  : Held Bool
  enc   : Held Bool
  csum  : Held Bool
  hlen  : Held Nat
  ckval : Held Word
  dict  : Vector (Held Byte) 16
deriving DecidableEq, Repr

/-- R29: "every PARSE writes all of them". -/
def State.setRecord (s : State) (r : Record) : State :=
  { s with
    valid := r.valid, rej := r.rej, comp := r.comp, enc := r.enc, csum := r.csum, hlen := r.hlen, ckval := r.ckval,
    dict := r.dict }

/-! ## The host port -/

/-- What a host read returns (R190). -/
def State.answer (s : State) (v : Nat) : State := { s with answers := v :: s.answers }

/-- A new draw of the free values (assumption log 4). -/
def State.nextDraw (s : State) : State := { s with draws := s.draws + 1 }

/-- What is still to come from outside. -/
def State.setPending (s : State) (p : List Event) : State := { s with pending := p }

/-- R240: the state of R44; what the host has asked, has been told and has drawn is no state of the PLC and stays. -/
def State.resetNow (s : State) : State :=
  { State.reset with pending := s.pending, answers := s.answers, draws := s.draws }

/-! ## DICT -/

/-- R27: the entry a 4-bit index names. -/
def State.dictEntry (s : State) (i : BitVec 4) : Held Byte := s.dict[i.toNat]'i.isLt

/-! ## The two ends of a PARSE -/

/-- DICT with every entry `unspecified` and a free value behind each (U1, U2). -/
def State.freeDict (s : State) : Vector (Held Byte) 16 :=
  table16 fun i => .unspecified (Config.freeDict s.draws i)

/-- R130: the record of a rejected PARSE. VALID is 0, REJ the cause, all else `unspecified` with a free value behind. -/
def State.rejected (s : State) (cause : BitVec 3) : Record where
  valid := false
  rej := cause
  comp := .unspecified (Config.freeBit s.draws Reg.comp.number)
  enc := .unspecified (Config.freeBit s.draws Reg.enc.number)
  csum := .unspecified (Config.freeBit s.draws Reg.csum.number)
  hlen := .unspecified (Config.freeSize s.draws Reg.hlen.number)
  ckval := .unspecified (Config.freeWord s.draws Reg.ckval.number)
  dict := s.freeDict

/-- R127: the record of a PARSE that accepts `h`. HLEN is the number of header bytes (R128); DICT without a dictionary
and CKVAL without a checksum are `unspecified` with a free value behind. -/
def State.accepted (s : State) (h : Header) : Record where
  valid := true
  rej := 0#3
  comp := .put h.comp
  enc := .put h.enc
  csum := .put h.csum
  hlen := .put (4 + 16 * h.comp.toNat + 2 * h.csum.toNat)
  ckval :=
    match h.cksum with
    | some k => .put k
    | none => .unspecified (Config.freeWord s.draws Reg.ckval.number)
  dict :=
    match h.dict with
    | some d => table16 fun i => .put (d.toList.getD i 0#8)
    | none => s.freeDict

/-- R130, `reject(n)`. It saves nothing, masks nothing and transfers control nowhere (R217). -/
def State.reject (s : State) (cause : BitVec 3) : State := s.setRecord (s.rejected cause)

/-- R127, acceptance. -/
def State.accept (s : State) (h : Header) : State := s.setRecord (s.accepted h)

/-! ## Chaining outcomes -/

/-- `k` on the result of `o`, if `o` goes on. -/
def andThen {α β : Type} (o : Host.Outcome α Fault Refusal) (k : α → Host.Outcome β Fault Refusal) :
    Host.Outcome β Fault Refusal :=
  match o with
  | .next a => k a
  | .fault f => .fault f
  | .refused r => .refused r

end Sys2Proof.Machine
end

