-- ==== Sys2Proof/Machine/Operands.lean ====
section
/-! DEFINITION. The operand forms of the commands: the register operands, the two regions of R63 with their launch
premises (R64, R65), the bytes of the input region, the writes into the output region, and fetching a token at the input
cursor (R98). -/

namespace Sys2Proof.Machine

/-! ## Register operands

What a command takes from an operand register, and what a host reads there: the register's value, or, while it is
`unspecified`, the free value of the current draw (R37; U5: a model "may instead run the command with a drawn value for
the operand"; assumption log 5). -/

/-- The operand KEY (R21). -/
def State.keyOp (s : State) : Word := s.key.observe (Config.freeWord s.draws Reg.key.number)

/-- The operand LFSR (R22). -/
def State.lfsrOp (s : State) : Word := s.lfsr.observe (Config.freeWord s.draws Reg.lfsr.number)

/-- The operand SRC (R24). -/
def State.srcOp (s : State) : Nat := s.src.observe (Config.freeSize s.draws Reg.src.number)

/-- The operand LEN (R24). -/
def State.lenOp (s : State) : Nat := s.len.observe (Config.freeSize s.draws Reg.len.number)

/-- The operand DST (R25). -/
def State.dstOp (s : State) : Nat := s.dst.observe (Config.freeSize s.draws Reg.dst.number)

/-- The operand CAP (R25). -/
def State.capOp (s : State) : Nat := s.cap.observe (Config.freeSize s.draws Reg.cap.number)

/-- The operand DICT[i] (R27). -/
def State.dictOp (s : State) (i : BitVec 4) : Byte := (s.dictEntry i).observe (Config.freeDict s.draws i.toNat)

/-! ## Regions -/

/-- The byte at `a` as a command or the host gets it: what was written there, or the free value of this draw
(R61, U3, U5). -/
def State.byteAt (s : State) (a : Nat) : Byte := (Memory.read s.mem a).getD (Config.freeMem s.draws a)

/-- R15, R63: `in[i]`. -/
def State.inByte (s : State) (i : Nat) : Byte := s.byteAt (s.srcOp + i)

/-- `in[i]` to `in[i + n - 1]`. -/
def State.inBytes (s : State) (i n : Nat) : List Byte := (List.range n).map fun j => s.inByte (i + j)

/-- R64, for a command that uses the input region. -/
def State.inputInRange (s : State) : Bool := Config.inSpace (s.srcOp + s.lenOp)

/-- R64, for a command that uses the output region. -/
def State.outputInRange (s : State) : Bool := Config.inSpace (s.dstOp + s.capOp)

/-- R65: the regions share no address; an empty region shares none. -/
def State.regionsDisjoint (s : State) : Bool :=
  s.lenOp == 0 || s.capOp == 0 || decide (s.srcOp + s.lenOp ≤ s.dstOp) ||
    decide (s.dstOp + s.capOp ≤ s.srcOp)

/-- The launch of a command that uses the input region alone (R246: PARSE, CKSUM). -/
def launchIn (s : State) (run : State → Result) : Result :=
  if s.inputInRange then run s else .refused .regionsOutOfRange

/-- The launch of a command that uses both regions (R246: DECRYPT, DECOMP). -/
def launchInOut (s : State) (run : State → Result) : Result :=
  if s.inputInRange && s.outputInRange then
    if s.regionsDisjoint then run s else .refused .regionsOverlap
  else .refused .regionsOutOfRange

/-- `out[i] <- v_0; out[i + 1] <- v_1; ...` (R62, R69). The callers cut `vs` to the capacity. -/
def State.output (s : State) (i : Nat) (vs : List Byte) : State :=
  s.setMem (Memory.writeBytes s.mem (s.dstOp + i) vs)

/-- R98: the bytes a token at cursor `ic` can consist of: one byte at the last index of the region, else two. -/
def State.tokenBytes (s : State) (ic : Nat) : List Byte := s.inBytes ic (min 2 (s.lenOp - ic))

/-- How many of `n` bytes fit at output cursor `oc` (R173: `min(count, CAP - oc)`). -/
def State.room (s : State) (oc n : Nat) : Nat := min n (s.capOp - oc)

/-- What every token does at the cursors of the running DECOMP: write `n` copies of `v`, as many as fit, move `oc` past
them and `ic` past the token's `used` bytes (R171 to R174, R41). -/
def State.emit (s : State) (used n : Nat) (v : Byte) : Result :=
  match s.cursors with
  | none => .refused .noStreamRunning
  | some c =>
    .next ((s.output c.oc (List.replicate (s.room c.oc n) v)).setCursors
      (some ⟨c.ic + used, c.oc + s.room c.oc n⟩))

end Sys2Proof.Machine
end

