-- ==== Sys2Proof/Machine/Flags.lean ====
section
/-! DEFINITION. The status bits. The PLC has no condition codes (R36); its one-bit registers are VALID, COMP, ENC and
CSUM, which PARSE writes, and the derived CKMATCH. This file says what the host reads in every register (R191). -/

namespace Sys2Proof.Machine

/-- R35: CKMATCH is 1 if `SUM = CKVAL`, and `unspecified` while either is. -/
def State.ckmatch (s : State) : Bool :=
  if s.sum.known && s.ckval.known then s.sum.val == s.ckval.val else Config.freeBit s.draws Reg.ckmatch.number

/-- What a host read of a register returns (R190, R191): the value, or the free value of this draw where the register
is `unspecified` (U1 to U4). CMD has no value; a read of it is refused before this is asked (R38). -/
def State.readReg (s : State) : Reg → Nat
  | .cmd => 0
  | .key => s.keyOp.toNat
  | .lfsr => s.lfsrOp.toNat
  | .sum => (s.sum.observe (Config.freeWord s.draws Reg.sum.number)).toNat
  | .src => s.srcOp
  | .len => s.lenOp
  | .dst => s.dstOp
  | .cap => s.capOp
  | .rlen => s.rlen.observe (Config.freeSize s.draws Reg.rlen.number)
  | .valid => s.valid.toNat
  | .comp => (s.comp.observe (Config.freeBit s.draws Reg.comp.number)).toNat
  | .enc => (s.enc.observe (Config.freeBit s.draws Reg.enc.number)).toNat
  | .csum => (s.csum.observe (Config.freeBit s.draws Reg.csum.number)).toNat
  | .ckval => (s.ckval.observe (Config.freeWord s.draws Reg.ckval.number)).toNat
  | .hlen => s.hlen.observe (Config.freeSize s.draws Reg.hlen.number)
  | .rej => s.rej.toNat
  | .ckmatch => s.ckmatch.toNat
  | .dict i => (s.dictOp i).toNat

/-- The registers a host write reaches, but CMD (R191: "A write replaces the whole register"); the others do not
change here. -/
def State.writeReg (s : State) (r : Reg) (v : Nat) : State :=
  match r with
  | .key => s.setKey (.put (BitVec.ofNat 16 v))
  | .lfsr => s.setLfsr (.put (BitVec.ofNat 16 v))
  | .src => s.setSrc (.put v)
  | .len => s.setLen (.put v)
  | .dst => s.setDst (.put v)
  | .cap => s.setCap (.put v)
  | .dict i => s.setDict i (.put (BitVec.ofNat 8 v))
  | .cmd => s
  | .sum => s
  | .rlen => s
  | .valid => s
  | .comp => s
  | .enc => s
  | .csum => s
  | .ckval => s
  | .hlen => s
  | .rej => s
  | .ckmatch => s

end Sys2Proof.Machine
end

