-- ==== Sys2Proof/Machine/Checksum.lean ====
section
/-! DEFINITION. The CKS unit: CKSUM (`spec/41_checksum.md`). -/

namespace Sys2Proof.Machine

/-- R141's loop: `acc <- acc +16 zext_16(b)` over the bytes. -/
def sumFrom : Word → List Byte → Word
  | acc, [] => acc
  | acc, b :: bs => sumFrom (acc + b.setWidth 16) bs

/-- R140: `sum16`. -/
def sum16 (bs : List Byte) : Word := sumFrom 0#16 bs

/-- R141. -/
def execCksum (s : State) : Result :=
  launchIn s fun s => .next (s.setSum (.put (sum16 (s.inBytes 0 s.lenOp))))

end Sys2Proof.Machine
end

