-- ==== Sys2Proof/Machine/Cipher.lean ====
section
/-! DEFINITION. The CIPH unit: STEP and DECRYPT (`spec/42_lfsr_cipher.md`). -/

namespace Sys2Proof.Machine

/-- R150: the feedback bit, the XOR of bits 0, 11, 13 and 14. -/
def feedback (s : Word) : Bool := ((s.getLsbD 0 ^^ s.getLsbD 11) ^^ s.getLsbD 13) ^^ s.getLsbD 14

/-- R150: `lfsr_step`. -/
def lfsrStep (s : Word) : Word := (s >>> 1) ||| ((BitVec.ofBool (feedback s)).setWidth 16 <<< 15)

/-- R152. -/
def execStep (s : State) : Result := .next (s.setLfsr (.put (lfsrStep s.lfsrOp)))

/-- R155's loop over the input bytes: the output bytes and the register at the end. `second` says that the next byte is
the second of its pair (`ic` odd): it takes the high byte, and the register steps after it. -/
def cipherLoop : (second : Bool) → Word → List Byte → List Byte × Word
  | _, r, [] => ([], r)
  | false, r, b :: bs =>
    let rest := cipherLoop true r bs
    ((b ^^^ lowByte r) :: rest.1, rest.2)
  | true, r, b :: bs =>
    let rest := cipherLoop false (lfsrStep r) bs
    ((b ^^^ highByte r) :: rest.1, rest.2)

/-- R155: the bytes DECRYPT uses, `in[i]` for `i < min(LEN, CAP)`, as they stand at issue (R65). -/
def State.cipherInput (s : State) : List Byte := s.inBytes 0 (min s.lenOp s.capOp)

/-- R155. -/
def execDecrypt (s : State) : Result :=
  launchInOut s fun s =>
    let r := cipherLoop false (lfsrStep s.keyOp) s.cipherInput
    .next (((s.output 0 r.1).setLfsr (.put r.2)).setRlen (.put r.1.length))

end Sys2Proof.Machine
end

