-- ==== Sys2Proof/Machine/Decompressor.lean ====
section
/-! DEFINITION. The DCMP unit: the four tokens and DECOMP, the interpreter that runs them
(`spec/43_decompress.md`). -/

namespace Sys2Proof.Machine

/-- R171. -/
def execLit (b : Byte) (s : State) : Result := s.emit 1 1 b

/-- R172. -/
def execEsclit (s : State) : Result := s.emit 2 1 0x07#8

/-- R173: `DICT[index]`, `count` times as far as the capacity goes. -/
def execRun (count index : BitVec 4) (s : State) : Result := s.emit 2 count.toNat (s.dictOp index)

/-- R174. -/
def execEsceof (s : State) : Result := s.emit 1 1 0x07#8

/-- The meaning of a token. -/
def execToken (t : Token) (s : State) : Result :=
  match t with
  | .lit b => execLit b s
  | .esclit => execEsclit s
  | .run c n => execRun c n s
  | .esceof => execEsceof s

/-- R175, after the loop: `RLEN <- oc`. The cursors end with the command (R40). -/
def State.finish (s : State) (c : Cursors) : State := (s.setRlen (.put c.oc)).setCursors none

/-- R175, one turn at cursors `c`: the token at `ic` if input and output both have room left (R177), else the end. -/
def tokenStep (s : State) (c : Cursors) : Result :=
  if c.ic < s.lenOp ∧ c.oc < s.capOp then
    match decodeToken (s.tokenBytes c.ic) with
    | some (t, _) => execToken t s
    | none => .next (s.finish c)
  else .next (s.finish c)

/-- R175's loop, at most `fuel` turns, until the cursors are gone. -/
def decompLoop : Nat → State → Result
  | 0, s => .next s
  | fuel + 1, s =>
    match s.cursors with
    | none => .next s
    | some c => andThen (tokenStep s c) (decompLoop fuel)

/-- R175. "Each iteration increases `ic` by 1 or 2, so the loop ends after at most LEN iterations"; one more turn
writes RLEN. -/
def execDecomp (s : State) : Result :=
  launchInOut s fun s => decompLoop (s.lenOp + 1) (s.setCursors (some ⟨0, 0⟩))

end Sys2Proof.Machine
end

