-- ==== Sys2Proof/Machine/HeaderDecoder.lean ====
section
/-! DEFINITION. The HDR unit: PARSE and the header format (`spec/40_header.md`). -/

namespace Sys2Proof.Machine

/-- R69, R131: the bytes PARSE may read, `in[i]` for `i < min(LEN, 22)`. -/
def State.headerBytes (s : State) : List Byte := s.inBytes 0 (min s.lenOp 22)

/-- R129. The checks are `decodeHeader`'s; with 22 bytes each length check answers as it does for LEN itself. -/
def execParse (s : State) : Result :=
  launchIn s fun s =>
    match decodeHeader s.headerBytes with
    | .error cause => .next (s.reject cause.code)
    | .ok (h, _) => .next (s.accept h)

/-- The header format as what PARSE does on meeting it: acceptance, R127 (assumption log 11). -/
def execHeader (h : Header) (s : State) : Result := .next (s.accept h)

end Sys2Proof.Machine
end

