-- ==== Sys2Proof/Machine/Reserved.lean ====
section
/-! DEFINITION. The reserved command codes, which a model refuses (R102, U8, premise `LegalCommand` of R246). -/

namespace Sys2Proof.Machine

/-- R102: code `000`. -/
def execReserved000 (_ : State) : Result := .refused (.reservedCommand 0#3)

/-- R102: code `110`. -/
def execReserved110 (_ : State) : Result := .refused (.reservedCommand 6#3)

/-- R102: code `111`. -/
def execReserved111 (_ : State) : Result := .refused (.reservedCommand 7#3)

end Sys2Proof.Machine
end

