-- ==== Sys2Proof/Machine/Dispatch.lean ====
section
/-! DEFINITION. One arm per row of the opcode table. -/

namespace Sys2Proof.Machine

def exec (i : Instr) (s : State) : Host.Outcome State Fault Refusal :=
  match i with
  | .parse => Sys2Proof.Machine.execParse s
  | .cksum => Sys2Proof.Machine.execCksum s
  | .step => Sys2Proof.Machine.execStep s
  | .decrypt => Sys2Proof.Machine.execDecrypt s
  | .decomp => Sys2Proof.Machine.execDecomp s
  | .reserved000 => Sys2Proof.Machine.execReserved000 s
  | .reserved110 => Sys2Proof.Machine.execReserved110 s
  | .reserved111 => Sys2Proof.Machine.execReserved111 s
  | .lit b => Sys2Proof.Machine.execLit b s
  | .esclit => Sys2Proof.Machine.execEsclit s
  | .run c n => Sys2Proof.Machine.execRun c n s
  | .esceof => Sys2Proof.Machine.execEsceof s
  | .header h => Sys2Proof.Machine.execHeader h s

end Sys2Proof.Machine
end

