-- ==== Sys2Proof/Machine/HostPort.lean ====
section
/-! DEFINITION. The host's actions (`spec/44_host_and_pipeline.md` R190 to R193) and the two named host sequences,
KEYGEN (R196) and UNPACK (R194, R198). -/

namespace Sys2Proof.Machine

/-- R193: `Issue(c)`. The command runs to its end before anything else happens (R11). -/
def issue (c : BitVec 3) (s : State) : Result := exec (decodeCommand c) s

/-- R190, R191: `HostWriteReg(r, v)`. A write to CMD issues the command (R28). -/
def hostWriteReg (r : Reg) (v : Nat) (s : State) : Result :=
  if r.hostWrites then
    if r.fits v then
      if r = .cmd then issue (BitVec.ofNat 3 v) s else .next (s.writeReg r v)
    else .refused (.valueTooWide r)
  else .refused (.notHostWritable r)

/-- R190, R191: `HostReadReg(r)`. -/
def hostReadReg (r : Reg) (s : State) : Result :=
  if r.hostReads then .next (s.answer (s.readReg r)) else .refused (.notHostReadable r)

/-- R190, R192: `HostWriteMem(a, b)`. -/
def hostWriteMem (a : Nat) (b : Byte) (s : State) : Result :=
  if Config.inSpace (a + 1) then .next (s.setMem (Memory.write s.mem a b)) else .fault (.noSuchAddress a)

/-- R190, R192: `HostReadMem(a)`. -/
def hostReadMem (a : Nat) (s : State) : Result :=
  if Config.inSpace (a + 1) then .next (s.answer (s.byteAt a).toNat) else .fault (.noSuchAddress a)

/-- R190: one host action. -/
def hostAct (a : HostAction) (s : State) : Result :=
  match a with
  | .writeReg r v => hostWriteReg r v s
  | .readReg r => hostReadReg r s
  | .writeMem a b => hostWriteMem a b s
  | .readMem a => hostReadMem a s
  | .issue c => hostWriteReg .cmd c.toNat s

/-- One host action as one step of a run (R13), with a draw of its own. -/
def hostStep (a : HostAction) (s : State) : Result := hostAct a s.nextDraw

/-- One event from outside: a host action, or a reset (R240). -/
def eventStep (e : Event) (s : State) : Result :=
  match e with
  | .act a => hostStep a s
  | .reset => .next s.resetNow.nextDraw

/-! ## Host sequences -/

/-- `rd REG` (R105): the value read, for the host's own use, and the state after the read. -/
def hostRd (r : Reg) (s : State) : Host.Outcome (Nat × State) Fault Refusal :=
  andThen (hostStep (.readReg r) s) fun t => .next (t.answers.headD 0, t)

/-- Several host actions one after another. -/
def hostSteps : List HostAction → State → Result
  | [], s => .next s
  | a :: as, s => andThen (hostStep a s) (hostSteps as)

/-- R196: `KEYGEN P, PN`. -/
def keygen (P PN : Nat) (s : State) : Result :=
  andThen (hostSteps [.writeReg .src P, .writeReg .len PN, .issue 2#3] s) fun s =>
  andThen (hostRd .sum s) fun p =>
  hostStep (.writeReg .key p.1) p.2

/-- How UNPACK ends (R194, R198): the host stops on a rejected header or on a checksum mismatch, or has the decoded
data as `n` bytes at an address. -/
inductive UnpackEnd where
  | headerError (cause : Nat)
  | integrityError
  | data (address n : Nat)
deriving DecidableEq, Repr

/-- R194: the checksum stage: `none` to stop with INTEGRITY_ERROR. -/
def unpackCheck (k cur n : Nat) (s : State) : Host.Outcome (Bool × State) Fault Refusal :=
  if k = 1 then
    andThen (hostSteps [.writeReg .src cur, .writeReg .len n, .issue 2#3] s) fun s =>
    andThen (hostRd .ckmatch s) fun p => .next (p.1 == 1, p.2)
  else .next (true, s)

/-- R194: the cipher stage; where the data stands after it. -/
def unpackDecrypt (e cur n P PN W : Nat) (s : State) : Host.Outcome ((Nat × Nat) × State) Fault Refusal :=
  if e = 1 then
    andThen (keygen P PN s) fun s =>
    andThen (hostSteps [.writeReg .src cur, .writeReg .len n, .writeReg .dst W, .writeReg .cap n, .issue 4#3] s)
      fun s =>
    andThen (hostRd .rlen s) fun p => .next ((W, p.1), p.2)
  else .next ((cur, n), s)

/-- R194: the decompression stage; where the data stands after it. -/
def unpackDecomp (c cur n O OC : Nat) (s : State) : Host.Outcome ((Nat × Nat) × State) Fault Refusal :=
  if c = 1 then
    andThen (hostSteps [.writeReg .src cur, .writeReg .len n, .writeReg .dst O, .writeReg .cap OC, .issue 5#3] s)
      fun s =>
    andThen (hostRd .rlen s) fun p => .next ((O, p.1), p.2)
  else .next ((cur, n), s)

/-- R194: `UNPACK A, N, P, PN, W, O, OC`. -/
def unpack (A N P PN W O OC : Nat) (s : State) : Host.Outcome (UnpackEnd × State) Fault Refusal :=
  andThen (hostSteps [.writeReg .src A, .writeReg .len N, .issue 1#3] s) fun s =>
  andThen (hostRd .valid s) fun v =>
  if v.1 = 0 then andThen (hostRd .rej v.2) fun r => .next (.headerError r.1, r.2)
  else
    andThen (hostRd .hlen v.2) fun h =>
    andThen (hostRd .comp h.2) fun c =>
    andThen (hostRd .enc c.2) fun e =>
    andThen (hostRd .csum e.2) fun k =>
    andThen (unpackCheck k.1 (A + h.1) (N - h.1) k.2) fun ok =>
    if ok.1 then
      andThen (unpackDecrypt e.1 (A + h.1) (N - h.1) P PN W ok.2) fun d =>
      andThen (unpackDecomp c.1 d.1.1 d.1.2 O OC d.2) fun z => .next (.data z.1.1 z.1.2, z.2)
    else .next (.integrityError, ok.2)

end Sys2Proof.Machine
end

