-- ==== Sys2Proof/Machine/Step.lean ====
section
/-! DEFINITION. One step: the next token of a DECOMP in progress, or else the next event from outside
(`spec/00_scope.md` R10 to R13). -/

namespace Sys2Proof.Machine

/-- R13: a step is one host action, a command running atomically inside it (R11); from reset no state between two
steps has cursors. A state that has them is the inside of a DECOMP: there a step is one turn of R175's loop and the
host takes none (R72). With nothing pending the core does nothing (R190: "The core takes no step of its own"). -/
def step (s : State) : Host.Outcome State Fault Refusal :=
  match s.cursors with
  | some c => tokenStep s c
  | none =>
    match s.pending with
    | [] => .next s
    | e :: rest => eventStep e (s.setPending rest)

/-- Puts the bytes of a stream or of a header at address 0 and points the input region at them. -/
def State.withInput (s : State) (bs : List Byte) : State :=
  ((s.setMem (Memory.writeBytes s.mem 0 bs)).setSrc (.put 0)).setLen (.put bs.length)

/-- A register that holds a value, at the value that stands in it: what the host has written before it issues a
command (R242). -/
def Held.settled {α : Type} (c : Held α) : Held α := .put c.val

/-- All operand registers of the commands hold a value (R242, premise `OperandsWritten`). -/
def State.settled (s : State) : State :=
  { s with
    key := s.key.settled, lfsr := s.lfsr.settled, src := s.src.settled, len := s.len.settled, dst := s.dst.settled,
    cap := s.cap.settled, dict := s.dict.map Held.settled }

/-- The state whose next step runs the instruction of a table word. A command is put at the head of what the host asks
for; a token becomes the whole stream of a DECOMP that has just started, with an output region of 15 bytes behind it;
a header becomes the input region and PARSE the next command. The operand registers hold values then, as a launch asks
(R242, R246; assumption log 13). -/
def State.withFetchWord (s : State) (nbits w : Nat) : State :=
  match tableWord nbits w with
  | none => s
  | some (.command c) => (s.settled.setCursors none).setPending (.act (.issue c) :: s.pending)
  | some (.stream bs) =>
    (((s.settled.withInput bs).setDst (.put bs.length)).setCap (.put 15)).setCursors (some ⟨0, 0⟩)
  | some (.header bs) => ((s.settled.withInput bs).setCursors none).setPending (.act (.issue 1#3) :: s.pending)

end Sys2Proof.Machine
end

