-- ==== Sys2Proof/Laws/State.lean ====
section
/-! SUPPORT. One lemma per field per update of State, so that no proof unfolds a record update. -/

namespace Sys2Proof.Machine

variable (s : State)

/-! ## setKey -/

@[simp] theorem State.setKey_key (v : Held Word) : (s.setKey v).key = v := rfl
@[simp] theorem State.setKey_lfsr (v : Held Word) : (s.setKey v).lfsr = s.lfsr := rfl
@[simp] theorem State.setKey_sum (v : Held Word) : (s.setKey v).sum = s.sum := rfl
@[simp] theorem State.setKey_src (v : Held Word) : (s.setKey v).src = s.src := rfl
@[simp] theorem State.setKey_len (v : Held Word) : (s.setKey v).len = s.len := rfl
@[simp] theorem State.setKey_dst (v : Held Word) : (s.setKey v).dst = s.dst := rfl
@[simp] theorem State.setKey_cap (v : Held Word) : (s.setKey v).cap = s.cap := rfl
@[simp] theorem State.setKey_rlen (v : Held Word) : (s.setKey v).rlen = s.rlen := rfl
@[simp] theorem State.setKey_valid (v : Held Word) : (s.setKey v).valid = s.valid := rfl
@[simp] theorem State.setKey_comp (v : Held Word) : (s.setKey v).comp = s.comp := rfl
@[simp] theorem State.setKey_enc (v : Held Word) : (s.setKey v).enc = s.enc := rfl
@[simp] theorem State.setKey_csum (v : Held Word) : (s.setKey v).csum = s.csum := rfl
@[simp] theorem State.setKey_ckval (v : Held Word) : (s.setKey v).ckval = s.ckval := rfl
@[simp] theorem State.setKey_hlen (v : Held Word) : (s.setKey v).hlen = s.hlen := rfl
@[simp] theorem State.setKey_rej (v : Held Word) : (s.setKey v).rej = s.rej := rfl
@[simp] theorem State.setKey_dict (v : Held Word) : (s.setKey v).dict = s.dict := rfl
@[simp] theorem State.setKey_mem (v : Held Word) : (s.setKey v).mem = s.mem := rfl
@[simp] theorem State.setKey_cursors (v : Held Word) : (s.setKey v).cursors = s.cursors := rfl
@[simp] theorem State.setKey_pending (v : Held Word) : (s.setKey v).pending = s.pending := rfl
@[simp] theorem State.setKey_answers (v : Held Word) : (s.setKey v).answers = s.answers := rfl
@[simp] theorem State.setKey_draws (v : Held Word) : (s.setKey v).draws = s.draws := rfl

/-! ## setLfsr -/

@[simp] theorem State.setLfsr_key (v : Held Word) : (s.setLfsr v).key = s.key := rfl
@[simp] theorem State.setLfsr_lfsr (v : Held Word) : (s.setLfsr v).lfsr = v := rfl
@[simp] theorem State.setLfsr_sum (v : Held Word) : (s.setLfsr v).sum = s.sum := rfl
@[simp] theorem State.setLfsr_src (v : Held Word) : (s.setLfsr v).src = s.src := rfl
@[simp] theorem State.setLfsr_len (v : Held Word) : (s.setLfsr v).len = s.len := rfl
@[simp] theorem State.setLfsr_dst (v : Held Word) : (s.setLfsr v).dst = s.dst := rfl
@[simp] theorem State.setLfsr_cap (v : Held Word) : (s.setLfsr v).cap = s.cap := rfl
@[simp] theorem State.setLfsr_rlen (v : Held Word) : (s.setLfsr v).rlen = s.rlen := rfl
@[simp] theorem State.setLfsr_valid (v : Held Word) : (s.setLfsr v).valid = s.valid := rfl
@[simp] theorem State.setLfsr_comp (v : Held Word) : (s.setLfsr v).comp = s.comp := rfl
@[simp] theorem State.setLfsr_enc (v : Held Word) : (s.setLfsr v).enc = s.enc := rfl
@[simp] theorem State.setLfsr_csum (v : Held Word) : (s.setLfsr v).csum = s.csum := rfl
@[simp] theorem State.setLfsr_ckval (v : Held Word) : (s.setLfsr v).ckval = s.ckval := rfl
@[simp] theorem State.setLfsr_hlen (v : Held Word) : (s.setLfsr v).hlen = s.hlen := rfl
@[simp] theorem State.setLfsr_rej (v : Held Word) : (s.setLfsr v).rej = s.rej := rfl
@[simp] theorem State.setLfsr_dict (v : Held Word) : (s.setLfsr v).dict = s.dict := rfl
@[simp] theorem State.setLfsr_mem (v : Held Word) : (s.setLfsr v).mem = s.mem := rfl
@[simp] theorem State.setLfsr_cursors (v : Held Word) : (s.setLfsr v).cursors = s.cursors := rfl
@[simp] theorem State.setLfsr_pending (v : Held Word) : (s.setLfsr v).pending = s.pending := rfl
@[simp] theorem State.setLfsr_answers (v : Held Word) : (s.setLfsr v).answers = s.answers := rfl
@[simp] theorem State.setLfsr_draws (v : Held Word) : (s.setLfsr v).draws = s.draws := rfl

/-! ## setSum -/

@[simp] theorem State.setSum_key (v : Held Word) : (s.setSum v).key = s.key := rfl
@[simp] theorem State.setSum_lfsr (v : Held Word) : (s.setSum v).lfsr = s.lfsr := rfl
@[simp] theorem State.setSum_sum (v : Held Word) : (s.setSum v).sum = v := rfl
@[simp] theorem State.setSum_src (v : Held Word) : (s.setSum v).src = s.src := rfl
@[simp] theorem State.setSum_len (v : Held Word) : (s.setSum v).len = s.len := rfl
@[simp] theorem State.setSum_dst (v : Held Word) : (s.setSum v).dst = s.dst := rfl
@[simp] theorem State.setSum_cap (v : Held Word) : (s.setSum v).cap = s.cap := rfl
@[simp] theorem State.setSum_rlen (v : Held Word) : (s.setSum v).rlen = s.rlen := rfl
@[simp] theorem State.setSum_valid (v : Held Word) : (s.setSum v).valid = s.valid := rfl
@[simp] theorem State.setSum_comp (v : Held Word) : (s.setSum v).comp = s.comp := rfl
@[simp] theorem State.setSum_enc (v : Held Word) : (s.setSum v).enc = s.enc := rfl
@[simp] theorem State.setSum_csum (v : Held Word) : (s.setSum v).csum = s.csum := rfl
@[simp] theorem State.setSum_ckval (v : Held Word) : (s.setSum v).ckval = s.ckval := rfl
@[simp] theorem State.setSum_hlen (v : Held Word) : (s.setSum v).hlen = s.hlen := rfl
@[simp] theorem State.setSum_rej (v : Held Word) : (s.setSum v).rej = s.rej := rfl
@[simp] theorem State.setSum_dict (v : Held Word) : (s.setSum v).dict = s.dict := rfl
@[simp] theorem State.setSum_mem (v : Held Word) : (s.setSum v).mem = s.mem := rfl
@[simp] theorem State.setSum_cursors (v : Held Word) : (s.setSum v).cursors = s.cursors := rfl
@[simp] theorem State.setSum_pending (v : Held Word) : (s.setSum v).pending = s.pending := rfl
@[simp] theorem State.setSum_answers (v : Held Word) : (s.setSum v).answers = s.answers := rfl
@[simp] theorem State.setSum_draws (v : Held Word) : (s.setSum v).draws = s.draws := rfl

/-! ## setSrc -/

@[simp] theorem State.setSrc_key (v : Held Nat) : (s.setSrc v).key = s.key := rfl
@[simp] theorem State.setSrc_lfsr (v : Held Nat) : (s.setSrc v).lfsr = s.lfsr := rfl
@[simp] theorem State.setSrc_sum (v : Held Nat) : (s.setSrc v).sum = s.sum := rfl
@[simp] theorem State.setSrc_src (v : Held Nat) : (s.setSrc v).src = v := rfl
@[simp] theorem State.setSrc_len (v : Held Nat) : (s.setSrc v).len = s.len := rfl
@[simp] theorem State.setSrc_dst (v : Held Nat) : (s.setSrc v).dst = s.dst := rfl
@[simp] theorem State.setSrc_cap (v : Held Nat) : (s.setSrc v).cap = s.cap := rfl
@[simp] theorem State.setSrc_rlen (v : Held Nat) : (s.setSrc v).rlen = s.rlen := rfl
@[simp] theorem State.setSrc_valid (v : Held Nat) : (s.setSrc v).valid = s.valid := rfl
@[simp] theorem State.setSrc_comp (v : Held Nat) : (s.setSrc v).comp = s.comp := rfl
@[simp] theorem State.setSrc_enc (v : Held Nat) : (s.setSrc v).enc = s.enc := rfl
@[simp] theorem State.setSrc_csum (v : Held Nat) : (s.setSrc v).csum = s.csum := rfl
@[simp] theorem State.setSrc_ckval (v : Held Nat) : (s.setSrc v).ckval = s.ckval := rfl
@[simp] theorem State.setSrc_hlen (v : Held Nat) : (s.setSrc v).hlen = s.hlen := rfl
@[simp] theorem State.setSrc_rej (v : Held Nat) : (s.setSrc v).rej = s.rej := rfl
@[simp] theorem State.setSrc_dict (v : Held Nat) : (s.setSrc v).dict = s.dict := rfl
@[simp] theorem State.setSrc_mem (v : Held Nat) : (s.setSrc v).mem = s.mem := rfl
@[simp] theorem State.setSrc_cursors (v : Held Nat) : (s.setSrc v).cursors = s.cursors := rfl
@[simp] theorem State.setSrc_pending (v : Held Nat) : (s.setSrc v).pending = s.pending := rfl
@[simp] theorem State.setSrc_answers (v : Held Nat) : (s.setSrc v).answers = s.answers := rfl
@[simp] theorem State.setSrc_draws (v : Held Nat) : (s.setSrc v).draws = s.draws := rfl

/-! ## setLen -/

@[simp] theorem State.setLen_key (v : Held Nat) : (s.setLen v).key = s.key := rfl
@[simp] theorem State.setLen_lfsr (v : Held Nat) : (s.setLen v).lfsr = s.lfsr := rfl
@[simp] theorem State.setLen_sum (v : Held Nat) : (s.setLen v).sum = s.sum := rfl
@[simp] theorem State.setLen_src (v : Held Nat) : (s.setLen v).src = s.src := rfl
@[simp] theorem State.setLen_len (v : Held Nat) : (s.setLen v).len = v := rfl
@[simp] theorem State.setLen_dst (v : Held Nat) : (s.setLen v).dst = s.dst := rfl
@[simp] theorem State.setLen_cap (v : Held Nat) : (s.setLen v).cap = s.cap := rfl
@[simp] theorem State.setLen_rlen (v : Held Nat) : (s.setLen v).rlen = s.rlen := rfl
@[simp] theorem State.setLen_valid (v : Held Nat) : (s.setLen v).valid = s.valid := rfl
@[simp] theorem State.setLen_comp (v : Held Nat) : (s.setLen v).comp = s.comp := rfl
@[simp] theorem State.setLen_enc (v : Held Nat) : (s.setLen v).enc = s.enc := rfl
@[simp] theorem State.setLen_csum (v : Held Nat) : (s.setLen v).csum = s.csum := rfl
@[simp] theorem State.setLen_ckval (v : Held Nat) : (s.setLen v).ckval = s.ckval := rfl
@[simp] theorem State.setLen_hlen (v : Held Nat) : (s.setLen v).hlen = s.hlen := rfl
@[simp] theorem State.setLen_rej (v : Held Nat) : (s.setLen v).rej = s.rej := rfl
@[simp] theorem State.setLen_dict (v : Held Nat) : (s.setLen v).dict = s.dict := rfl
@[simp] theorem State.setLen_mem (v : Held Nat) : (s.setLen v).mem = s.mem := rfl
@[simp] theorem State.setLen_cursors (v : Held Nat) : (s.setLen v).cursors = s.cursors := rfl
@[simp] theorem State.setLen_pending (v : Held Nat) : (s.setLen v).pending = s.pending := rfl
@[simp] theorem State.setLen_answers (v : Held Nat) : (s.setLen v).answers = s.answers := rfl
@[simp] theorem State.setLen_draws (v : Held Nat) : (s.setLen v).draws = s.draws := rfl

/-! ## setDst -/

@[simp] theorem State.setDst_key (v : Held Nat) : (s.setDst v).key = s.key := rfl
@[simp] theorem State.setDst_lfsr (v : Held Nat) : (s.setDst v).lfsr = s.lfsr := rfl
@[simp] theorem State.setDst_sum (v : Held Nat) : (s.setDst v).sum = s.sum := rfl
@[simp] theorem State.setDst_src (v : Held Nat) : (s.setDst v).src = s.src := rfl
@[simp] theorem State.setDst_len (v : Held Nat) : (s.setDst v).len = s.len := rfl
@[simp] theorem State.setDst_dst (v : Held Nat) : (s.setDst v).dst = v := rfl
@[simp] theorem State.setDst_cap (v : Held Nat) : (s.setDst v).cap = s.cap := rfl
@[simp] theorem State.setDst_rlen (v : Held Nat) : (s.setDst v).rlen = s.rlen := rfl
@[simp] theorem State.setDst_valid (v : Held Nat) : (s.setDst v).valid = s.valid := rfl
@[simp] theorem State.setDst_comp (v : Held Nat) : (s.setDst v).comp = s.comp := rfl
@[simp] theorem State.setDst_enc (v : Held Nat) : (s.setDst v).enc = s.enc := rfl
@[simp] theorem State.setDst_csum (v : Held Nat) : (s.setDst v).csum = s.csum := rfl
@[simp] theorem State.setDst_ckval (v : Held Nat) : (s.setDst v).ckval = s.ckval := rfl
@[simp] theorem State.setDst_hlen (v : Held Nat) : (s.setDst v).hlen = s.hlen := rfl
@[simp] theorem State.setDst_rej (v : Held Nat) : (s.setDst v).rej = s.rej := rfl
@[simp] theorem State.setDst_dict (v : Held Nat) : (s.setDst v).dict = s.dict := rfl
@[simp] theorem State.setDst_mem (v : Held Nat) : (s.setDst v).mem = s.mem := rfl
@[simp] theorem State.setDst_cursors (v : Held Nat) : (s.setDst v).cursors = s.cursors := rfl
@[simp] theorem State.setDst_pending (v : Held Nat) : (s.setDst v).pending = s.pending := rfl
@[simp] theorem State.setDst_answers (v : Held Nat) : (s.setDst v).answers = s.answers := rfl
@[simp] theorem State.setDst_draws (v : Held Nat) : (s.setDst v).draws = s.draws := rfl

/-! ## setCap -/

@[simp] theorem State.setCap_key (v : Held Nat) : (s.setCap v).key = s.key := rfl
@[simp] theorem State.setCap_lfsr (v : Held Nat) : (s.setCap v).lfsr = s.lfsr := rfl
@[simp] theorem State.setCap_sum (v : Held Nat) : (s.setCap v).sum = s.sum := rfl
@[simp] theorem State.setCap_src (v : Held Nat) : (s.setCap v).src = s.src := rfl
@[simp] theorem State.setCap_len (v : Held Nat) : (s.setCap v).len = s.len := rfl
@[simp] theorem State.setCap_dst (v : Held Nat) : (s.setCap v).dst = s.dst := rfl
@[simp] theorem State.setCap_cap (v : Held Nat) : (s.setCap v).cap = v := rfl
@[simp] theorem State.setCap_rlen (v : Held Nat) : (s.setCap v).rlen = s.rlen := rfl
@[simp] theorem State.setCap_valid (v : Held Nat) : (s.setCap v).valid = s.valid := rfl
@[simp] theorem State.setCap_comp (v : Held Nat) : (s.setCap v).comp = s.comp := rfl
@[simp] theorem State.setCap_enc (v : Held Nat) : (s.setCap v).enc = s.enc := rfl
@[simp] theorem State.setCap_csum (v : Held Nat) : (s.setCap v).csum = s.csum := rfl
@[simp] theorem State.setCap_ckval (v : Held Nat) : (s.setCap v).ckval = s.ckval := rfl
@[simp] theorem State.setCap_hlen (v : Held Nat) : (s.setCap v).hlen = s.hlen := rfl
@[simp] theorem State.setCap_rej (v : Held Nat) : (s.setCap v).rej = s.rej := rfl
@[simp] theorem State.setCap_dict (v : Held Nat) : (s.setCap v).dict = s.dict := rfl
@[simp] theorem State.setCap_mem (v : Held Nat) : (s.setCap v).mem = s.mem := rfl
@[simp] theorem State.setCap_cursors (v : Held Nat) : (s.setCap v).cursors = s.cursors := rfl
@[simp] theorem State.setCap_pending (v : Held Nat) : (s.setCap v).pending = s.pending := rfl
@[simp] theorem State.setCap_answers (v : Held Nat) : (s.setCap v).answers = s.answers := rfl
@[simp] theorem State.setCap_draws (v : Held Nat) : (s.setCap v).draws = s.draws := rfl

/-! ## setRlen -/

@[simp] theorem State.setRlen_key (v : Held Nat) : (s.setRlen v).key = s.key := rfl
@[simp] theorem State.setRlen_lfsr (v : Held Nat) : (s.setRlen v).lfsr = s.lfsr := rfl
@[simp] theorem State.setRlen_sum (v : Held Nat) : (s.setRlen v).sum = s.sum := rfl
@[simp] theorem State.setRlen_src (v : Held Nat) : (s.setRlen v).src = s.src := rfl
@[simp] theorem State.setRlen_len (v : Held Nat) : (s.setRlen v).len = s.len := rfl
@[simp] theorem State.setRlen_dst (v : Held Nat) : (s.setRlen v).dst = s.dst := rfl
@[simp] theorem State.setRlen_cap (v : Held Nat) : (s.setRlen v).cap = s.cap := rfl
@[simp] theorem State.setRlen_rlen (v : Held Nat) : (s.setRlen v).rlen = v := rfl
@[simp] theorem State.setRlen_valid (v : Held Nat) : (s.setRlen v).valid = s.valid := rfl
@[simp] theorem State.setRlen_comp (v : Held Nat) : (s.setRlen v).comp = s.comp := rfl
@[simp] theorem State.setRlen_enc (v : Held Nat) : (s.setRlen v).enc = s.enc := rfl
@[simp] theorem State.setRlen_csum (v : Held Nat) : (s.setRlen v).csum = s.csum := rfl
@[simp] theorem State.setRlen_ckval (v : Held Nat) : (s.setRlen v).ckval = s.ckval := rfl
@[simp] theorem State.setRlen_hlen (v : Held Nat) : (s.setRlen v).hlen = s.hlen := rfl
@[simp] theorem State.setRlen_rej (v : Held Nat) : (s.setRlen v).rej = s.rej := rfl
@[simp] theorem State.setRlen_dict (v : Held Nat) : (s.setRlen v).dict = s.dict := rfl
@[simp] theorem State.setRlen_mem (v : Held Nat) : (s.setRlen v).mem = s.mem := rfl
@[simp] theorem State.setRlen_cursors (v : Held Nat) : (s.setRlen v).cursors = s.cursors := rfl
@[simp] theorem State.setRlen_pending (v : Held Nat) : (s.setRlen v).pending = s.pending := rfl
@[simp] theorem State.setRlen_answers (v : Held Nat) : (s.setRlen v).answers = s.answers := rfl
@[simp] theorem State.setRlen_draws (v : Held Nat) : (s.setRlen v).draws = s.draws := rfl

/-! ## setDict -/

@[simp] theorem State.setDict_key (i : BitVec 4) (v : Held Byte) : (s.setDict i v).key = s.key := rfl
@[simp] theorem State.setDict_lfsr (i : BitVec 4) (v : Held Byte) : (s.setDict i v).lfsr = s.lfsr := rfl
@[simp] theorem State.setDict_sum (i : BitVec 4) (v : Held Byte) : (s.setDict i v).sum = s.sum := rfl
@[simp] theorem State.setDict_src (i : BitVec 4) (v : Held Byte) : (s.setDict i v).src = s.src := rfl
@[simp] theorem State.setDict_len (i : BitVec 4) (v : Held Byte) : (s.setDict i v).len = s.len := rfl
@[simp] theorem State.setDict_dst (i : BitVec 4) (v : Held Byte) : (s.setDict i v).dst = s.dst := rfl
@[simp] theorem State.setDict_cap (i : BitVec 4) (v : Held Byte) : (s.setDict i v).cap = s.cap := rfl
@[simp] theorem State.setDict_rlen (i : BitVec 4) (v : Held Byte) : (s.setDict i v).rlen = s.rlen := rfl
@[simp] theorem State.setDict_valid (i : BitVec 4) (v : Held Byte) : (s.setDict i v).valid = s.valid := rfl
@[simp] theorem State.setDict_comp (i : BitVec 4) (v : Held Byte) : (s.setDict i v).comp = s.comp := rfl
@[simp] theorem State.setDict_enc (i : BitVec 4) (v : Held Byte) : (s.setDict i v).enc = s.enc := rfl
@[simp] theorem State.setDict_csum (i : BitVec 4) (v : Held Byte) : (s.setDict i v).csum = s.csum := rfl
@[simp] theorem State.setDict_ckval (i : BitVec 4) (v : Held Byte) : (s.setDict i v).ckval = s.ckval := rfl
@[simp] theorem State.setDict_hlen (i : BitVec 4) (v : Held Byte) : (s.setDict i v).hlen = s.hlen := rfl
@[simp] theorem State.setDict_rej (i : BitVec 4) (v : Held Byte) : (s.setDict i v).rej = s.rej := rfl
@[simp] theorem State.setDict_dict (i : BitVec 4) (v : Held Byte) : (s.setDict i v).dict = s.dict.set i.toNat v i.isLt := rfl
@[simp] theorem State.setDict_mem (i : BitVec 4) (v : Held Byte) : (s.setDict i v).mem = s.mem := rfl
@[simp] theorem State.setDict_cursors (i : BitVec 4) (v : Held Byte) : (s.setDict i v).cursors = s.cursors := rfl
@[simp] theorem State.setDict_pending (i : BitVec 4) (v : Held Byte) : (s.setDict i v).pending = s.pending := rfl
@[simp] theorem State.setDict_answers (i : BitVec 4) (v : Held Byte) : (s.setDict i v).answers = s.answers := rfl
@[simp] theorem State.setDict_draws (i : BitVec 4) (v : Held Byte) : (s.setDict i v).draws = s.draws := rfl

/-! ## setMem -/

@[simp] theorem State.setMem_key (m : Memory) : (s.setMem m).key = s.key := rfl
@[simp] theorem State.setMem_lfsr (m : Memory) : (s.setMem m).lfsr = s.lfsr := rfl
@[simp] theorem State.setMem_sum (m : Memory) : (s.setMem m).sum = s.sum := rfl
@[simp] theorem State.setMem_src (m : Memory) : (s.setMem m).src = s.src := rfl
@[simp] theorem State.setMem_len (m : Memory) : (s.setMem m).len = s.len := rfl
@[simp] theorem State.setMem_dst (m : Memory) : (s.setMem m).dst = s.dst := rfl
@[simp] theorem State.setMem_cap (m : Memory) : (s.setMem m).cap = s.cap := rfl
@[simp] theorem State.setMem_rlen (m : Memory) : (s.setMem m).rlen = s.rlen := rfl
@[simp] theorem State.setMem_valid (m : Memory) : (s.setMem m).valid = s.valid := rfl
@[simp] theorem State.setMem_comp (m : Memory) : (s.setMem m).comp = s.comp := rfl
@[simp] theorem State.setMem_enc (m : Memory) : (s.setMem m).enc = s.enc := rfl
@[simp] theorem State.setMem_csum (m : Memory) : (s.setMem m).csum = s.csum := rfl
@[simp] theorem State.setMem_ckval (m : Memory) : (s.setMem m).ckval = s.ckval := rfl
@[simp] theorem State.setMem_hlen (m : Memory) : (s.setMem m).hlen = s.hlen := rfl
@[simp] theorem State.setMem_rej (m : Memory) : (s.setMem m).rej = s.rej := rfl
@[simp] theorem State.setMem_dict (m : Memory) : (s.setMem m).dict = s.dict := rfl
@[simp] theorem State.setMem_mem (m : Memory) : (s.setMem m).mem = m := rfl
@[simp] theorem State.setMem_cursors (m : Memory) : (s.setMem m).cursors = s.cursors := rfl
@[simp] theorem State.setMem_pending (m : Memory) : (s.setMem m).pending = s.pending := rfl
@[simp] theorem State.setMem_answers (m : Memory) : (s.setMem m).answers = s.answers := rfl
@[simp] theorem State.setMem_draws (m : Memory) : (s.setMem m).draws = s.draws := rfl

/-! ## setCursors -/

@[simp] theorem State.setCursors_key (c : Option Cursors) : (s.setCursors c).key = s.key := rfl
@[simp] theorem State.setCursors_lfsr (c : Option Cursors) : (s.setCursors c).lfsr = s.lfsr := rfl
@[simp] theorem State.setCursors_sum (c : Option Cursors) : (s.setCursors c).sum = s.sum := rfl
@[simp] theorem State.setCursors_src (c : Option Cursors) : (s.setCursors c).src = s.src := rfl
@[simp] theorem State.setCursors_len (c : Option Cursors) : (s.setCursors c).len = s.len := rfl
@[simp] theorem State.setCursors_dst (c : Option Cursors) : (s.setCursors c).dst = s.dst := rfl
@[simp] theorem State.setCursors_cap (c : Option Cursors) : (s.setCursors c).cap = s.cap := rfl
@[simp] theorem State.setCursors_rlen (c : Option Cursors) : (s.setCursors c).rlen = s.rlen := rfl
@[simp] theorem State.setCursors_valid (c : Option Cursors) : (s.setCursors c).valid = s.valid := rfl
@[simp] theorem State.setCursors_comp (c : Option Cursors) : (s.setCursors c).comp = s.comp := rfl
@[simp] theorem State.setCursors_enc (c : Option Cursors) : (s.setCursors c).enc = s.enc := rfl
@[simp] theorem State.setCursors_csum (c : Option Cursors) : (s.setCursors c).csum = s.csum := rfl
@[simp] theorem State.setCursors_ckval (c : Option Cursors) : (s.setCursors c).ckval = s.ckval := rfl
@[simp] theorem State.setCursors_hlen (c : Option Cursors) : (s.setCursors c).hlen = s.hlen := rfl
@[simp] theorem State.setCursors_rej (c : Option Cursors) : (s.setCursors c).rej = s.rej := rfl
@[simp] theorem State.setCursors_dict (c : Option Cursors) : (s.setCursors c).dict = s.dict := rfl
@[simp] theorem State.setCursors_mem (c : Option Cursors) : (s.setCursors c).mem = s.mem := rfl
@[simp] theorem State.setCursors_cursors (c : Option Cursors) : (s.setCursors c).cursors = c := rfl
@[simp] theorem State.setCursors_pending (c : Option Cursors) : (s.setCursors c).pending = s.pending := rfl
@[simp] theorem State.setCursors_answers (c : Option Cursors) : (s.setCursors c).answers = s.answers := rfl
@[simp] theorem State.setCursors_draws (c : Option Cursors) : (s.setCursors c).draws = s.draws := rfl

/-! ## setRecord -/

@[simp] theorem State.setRecord_key (r : Record) : (s.setRecord r).key = s.key := rfl
@[simp] theorem State.setRecord_lfsr (r : Record) : (s.setRecord r).lfsr = s.lfsr := rfl
@[simp] theorem State.setRecord_sum (r : Record) : (s.setRecord r).sum = s.sum := rfl
@[simp] theorem State.setRecord_src (r : Record) : (s.setRecord r).src = s.src := rfl
@[simp] theorem State.setRecord_len (r : Record) : (s.setRecord r).len = s.len := rfl
@[simp] theorem State.setRecord_dst (r : Record) : (s.setRecord r).dst = s.dst := rfl
@[simp] theorem State.setRecord_cap (r : Record) : (s.setRecord r).cap = s.cap := rfl
@[simp] theorem State.setRecord_rlen (r : Record) : (s.setRecord r).rlen = s.rlen := rfl
@[simp] theorem State.setRecord_valid (r : Record) : (s.setRecord r).valid = r.valid := rfl
@[simp] theorem State.setRecord_comp (r : Record) : (s.setRecord r).comp = r.comp := rfl
@[simp] theorem State.setRecord_enc (r : Record) : (s.setRecord r).enc = r.enc := rfl
@[simp] theorem State.setRecord_csum (r : Record) : (s.setRecord r).csum = r.csum := rfl
@[simp] theorem State.setRecord_ckval (r : Record) : (s.setRecord r).ckval = r.ckval := rfl
@[simp] theorem State.setRecord_hlen (r : Record) : (s.setRecord r).hlen = r.hlen := rfl
@[simp] theorem State.setRecord_rej (r : Record) : (s.setRecord r).rej = r.rej := rfl
@[simp] theorem State.setRecord_dict (r : Record) : (s.setRecord r).dict = r.dict := rfl
@[simp] theorem State.setRecord_mem (r : Record) : (s.setRecord r).mem = s.mem := rfl
@[simp] theorem State.setRecord_cursors (r : Record) : (s.setRecord r).cursors = s.cursors := rfl
@[simp] theorem State.setRecord_pending (r : Record) : (s.setRecord r).pending = s.pending := rfl
@[simp] theorem State.setRecord_answers (r : Record) : (s.setRecord r).answers = s.answers := rfl
@[simp] theorem State.setRecord_draws (r : Record) : (s.setRecord r).draws = s.draws := rfl

/-! ## answer -/

@[simp] theorem State.answer_key (v : Nat) : (s.answer v).key = s.key := rfl
@[simp] theorem State.answer_lfsr (v : Nat) : (s.answer v).lfsr = s.lfsr := rfl
@[simp] theorem State.answer_sum (v : Nat) : (s.answer v).sum = s.sum := rfl
@[simp] theorem State.answer_src (v : Nat) : (s.answer v).src = s.src := rfl
@[simp] theorem State.answer_len (v : Nat) : (s.answer v).len = s.len := rfl
@[simp] theorem State.answer_dst (v : Nat) : (s.answer v).dst = s.dst := rfl
@[simp] theorem State.answer_cap (v : Nat) : (s.answer v).cap = s.cap := rfl
@[simp] theorem State.answer_rlen (v : Nat) : (s.answer v).rlen = s.rlen := rfl
@[simp] theorem State.answer_valid (v : Nat) : (s.answer v).valid = s.valid := rfl
@[simp] theorem State.answer_comp (v : Nat) : (s.answer v).comp = s.comp := rfl
@[simp] theorem State.answer_enc (v : Nat) : (s.answer v).enc = s.enc := rfl
@[simp] theorem State.answer_csum (v : Nat) : (s.answer v).csum = s.csum := rfl
@[simp] theorem State.answer_ckval (v : Nat) : (s.answer v).ckval = s.ckval := rfl
@[simp] theorem State.answer_hlen (v : Nat) : (s.answer v).hlen = s.hlen := rfl
@[simp] theorem State.answer_rej (v : Nat) : (s.answer v).rej = s.rej := rfl
@[simp] theorem State.answer_dict (v : Nat) : (s.answer v).dict = s.dict := rfl
@[simp] theorem State.answer_mem (v : Nat) : (s.answer v).mem = s.mem := rfl
@[simp] theorem State.answer_cursors (v : Nat) : (s.answer v).cursors = s.cursors := rfl
@[simp] theorem State.answer_pending (v : Nat) : (s.answer v).pending = s.pending := rfl
@[simp] theorem State.answer_answers (v : Nat) : (s.answer v).answers = v :: s.answers := rfl
@[simp] theorem State.answer_draws (v : Nat) : (s.answer v).draws = s.draws := rfl

/-! ## nextDraw -/

@[simp] theorem State.nextDraw_key : (s.nextDraw).key = s.key := rfl
@[simp] theorem State.nextDraw_lfsr : (s.nextDraw).lfsr = s.lfsr := rfl
@[simp] theorem State.nextDraw_sum : (s.nextDraw).sum = s.sum := rfl
@[simp] theorem State.nextDraw_src : (s.nextDraw).src = s.src := rfl
@[simp] theorem State.nextDraw_len : (s.nextDraw).len = s.len := rfl
@[simp] theorem State.nextDraw_dst : (s.nextDraw).dst = s.dst := rfl
@[simp] theorem State.nextDraw_cap : (s.nextDraw).cap = s.cap := rfl
@[simp] theorem State.nextDraw_rlen : (s.nextDraw).rlen = s.rlen := rfl
@[simp] theorem State.nextDraw_valid : (s.nextDraw).valid = s.valid := rfl
@[simp] theorem State.nextDraw_comp : (s.nextDraw).comp = s.comp := rfl
@[simp] theorem State.nextDraw_enc : (s.nextDraw).enc = s.enc := rfl
@[simp] theorem State.nextDraw_csum : (s.nextDraw).csum = s.csum := rfl
@[simp] theorem State.nextDraw_ckval : (s.nextDraw).ckval = s.ckval := rfl
@[simp] theorem State.nextDraw_hlen : (s.nextDraw).hlen = s.hlen := rfl
@[simp] theorem State.nextDraw_rej : (s.nextDraw).rej = s.rej := rfl
@[simp] theorem State.nextDraw_dict : (s.nextDraw).dict = s.dict := rfl
@[simp] theorem State.nextDraw_mem : (s.nextDraw).mem = s.mem := rfl
@[simp] theorem State.nextDraw_cursors : (s.nextDraw).cursors = s.cursors := rfl
@[simp] theorem State.nextDraw_pending : (s.nextDraw).pending = s.pending := rfl
@[simp] theorem State.nextDraw_answers : (s.nextDraw).answers = s.answers := rfl
@[simp] theorem State.nextDraw_draws : (s.nextDraw).draws = s.draws + 1 := rfl

/-! ## setPending -/

@[simp] theorem State.setPending_key (p : List Event) : (s.setPending p).key = s.key := rfl
@[simp] theorem State.setPending_lfsr (p : List Event) : (s.setPending p).lfsr = s.lfsr := rfl
@[simp] theorem State.setPending_sum (p : List Event) : (s.setPending p).sum = s.sum := rfl
@[simp] theorem State.setPending_src (p : List Event) : (s.setPending p).src = s.src := rfl
@[simp] theorem State.setPending_len (p : List Event) : (s.setPending p).len = s.len := rfl
@[simp] theorem State.setPending_dst (p : List Event) : (s.setPending p).dst = s.dst := rfl
@[simp] theorem State.setPending_cap (p : List Event) : (s.setPending p).cap = s.cap := rfl
@[simp] theorem State.setPending_rlen (p : List Event) : (s.setPending p).rlen = s.rlen := rfl
@[simp] theorem State.setPending_valid (p : List Event) : (s.setPending p).valid = s.valid := rfl
@[simp] theorem State.setPending_comp (p : List Event) : (s.setPending p).comp = s.comp := rfl
@[simp] theorem State.setPending_enc (p : List Event) : (s.setPending p).enc = s.enc := rfl
@[simp] theorem State.setPending_csum (p : List Event) : (s.setPending p).csum = s.csum := rfl
@[simp] theorem State.setPending_ckval (p : List Event) : (s.setPending p).ckval = s.ckval := rfl
@[simp] theorem State.setPending_hlen (p : List Event) : (s.setPending p).hlen = s.hlen := rfl
@[simp] theorem State.setPending_rej (p : List Event) : (s.setPending p).rej = s.rej := rfl
@[simp] theorem State.setPending_dict (p : List Event) : (s.setPending p).dict = s.dict := rfl
@[simp] theorem State.setPending_mem (p : List Event) : (s.setPending p).mem = s.mem := rfl
@[simp] theorem State.setPending_cursors (p : List Event) : (s.setPending p).cursors = s.cursors := rfl
@[simp] theorem State.setPending_pending (p : List Event) : (s.setPending p).pending = p := rfl
@[simp] theorem State.setPending_answers (p : List Event) : (s.setPending p).answers = s.answers := rfl
@[simp] theorem State.setPending_draws (p : List Event) : (s.setPending p).draws = s.draws := rfl

/-! ## resetNow -/

@[simp] theorem State.resetNow_key : (s.resetNow).key = State.reset.key := rfl
@[simp] theorem State.resetNow_lfsr : (s.resetNow).lfsr = State.reset.lfsr := rfl
@[simp] theorem State.resetNow_sum : (s.resetNow).sum = State.reset.sum := rfl
@[simp] theorem State.resetNow_src : (s.resetNow).src = State.reset.src := rfl
@[simp] theorem State.resetNow_len : (s.resetNow).len = State.reset.len := rfl
@[simp] theorem State.resetNow_dst : (s.resetNow).dst = State.reset.dst := rfl
@[simp] theorem State.resetNow_cap : (s.resetNow).cap = State.reset.cap := rfl
@[simp] theorem State.resetNow_rlen : (s.resetNow).rlen = State.reset.rlen := rfl
@[simp] theorem State.resetNow_valid : (s.resetNow).valid = State.reset.valid := rfl
@[simp] theorem State.resetNow_comp : (s.resetNow).comp = State.reset.comp := rfl
@[simp] theorem State.resetNow_enc : (s.resetNow).enc = State.reset.enc := rfl
@[simp] theorem State.resetNow_csum : (s.resetNow).csum = State.reset.csum := rfl
@[simp] theorem State.resetNow_ckval : (s.resetNow).ckval = State.reset.ckval := rfl
@[simp] theorem State.resetNow_hlen : (s.resetNow).hlen = State.reset.hlen := rfl
@[simp] theorem State.resetNow_rej : (s.resetNow).rej = State.reset.rej := rfl
@[simp] theorem State.resetNow_dict : (s.resetNow).dict = State.reset.dict := rfl
@[simp] theorem State.resetNow_mem : (s.resetNow).mem = State.reset.mem := rfl
@[simp] theorem State.resetNow_cursors : (s.resetNow).cursors = State.reset.cursors := rfl
@[simp] theorem State.resetNow_pending : (s.resetNow).pending = s.pending := rfl
@[simp] theorem State.resetNow_answers : (s.resetNow).answers = s.answers := rfl
@[simp] theorem State.resetNow_draws : (s.resetNow).draws = s.draws := rfl

/-! ## Held -/

@[simp] theorem Held.put_val {α : Type} (v : α) : (Held.put v).val = v := rfl
@[simp] theorem Held.put_known {α : Type} (v : α) : (Held.put v).known = true := rfl
@[simp] theorem Held.unspecified_val {α : Type} (v : α) : (Held.unspecified v).val = v := rfl
@[simp] theorem Held.unspecified_known {α : Type} (v : α) : (Held.unspecified v).known = false := rfl
@[simp] theorem Held.observe_known {α : Type} (c : Held α) (f : α) (h : c.known = true) : c.observe f = c.val := by
  simp [Held.observe, h]
@[simp] theorem Held.observe_unspecified {α : Type} (c : Held α) (f : α) (h : c.known = false) : c.observe f = f := by
  simp [Held.observe, h]

end Sys2Proof.Machine
end

