-- ==== Sys2Proof/Laws/Memory.lean ====
section
/-! SUPPORT. What the memory operations do (R60 to R62, R69) and that each keeps the canonical form. -/

namespace Sys2Proof.Machine

/-! ## Reading back -/

theorem Memory.read_write (m : Memory) (a : Nat) (v : Byte) (x : Nat) :
    Memory.read (Memory.write m a v) x = if x = a then some v else Memory.read m x := by
  induction m with
  | nil => simp [Memory.write, Memory.read]
  | cons c m ih =>
    obtain ⟨b, w⟩ := c
    unfold Memory.write
    split
    · simp only [Memory.read]
    · split
      · next h =>
        subst h
        simp only [Memory.read]
        split <;> rfl
      · next h =>
        simp only [Memory.read, ih]
        split
        · next hx => rw [if_neg (by omega)]
        · rfl

@[simp] theorem Memory.read_write_same (m : Memory) (a : Nat) (v : Byte) :
    Memory.read (Memory.write m a v) a = some v := by simp [Memory.read_write]

theorem Memory.read_write_other (m : Memory) {a x : Nat} (v : Byte) (h : x ≠ a) :
    Memory.read (Memory.write m a v) x = Memory.read m x := by simp [Memory.read_write, h]

/-- All that `writeBytes` does: inside the written bytes the byte written there, elsewhere as before. -/
theorem Memory.read_writeBytes (m : Memory) (a : Nat) (vs : List Byte) (x : Nat) :
    Memory.read (Memory.writeBytes m a vs) x =
      if a ≤ x then (vs[x - a]?).orElse (fun _ => Memory.read m x) else Memory.read m x := by
  induction vs generalizing m a with
  | nil => simp [Memory.writeBytes]
  | cons v vs ih =>
    rw [Memory.writeBytes, ih, Memory.read_write]
    by_cases h1 : a + 1 ≤ x
    · have e : x - a = (x - (a + 1)) + 1 := by omega
      rw [if_pos h1, if_pos (by omega : a ≤ x), if_neg (by omega : ¬ x = a), e, List.getElem?_cons_succ]
    · rw [if_neg h1]
      by_cases h2 : x = a
      · subst h2; simp
      · rw [if_neg h2, if_neg (by omega)]

/-- Every byte written reads back. -/
theorem Memory.read_writeBytes_inside (m : Memory) (a : Nat) (vs : List Byte) (i : Nat) (h : i < vs.length) :
    Memory.read (Memory.writeBytes m a vs) (a + i) = some vs[i] := by
  simp [Memory.read_writeBytes, h]

/-- Every other byte reads as before. -/
theorem Memory.read_writeBytes_outside (m : Memory) (a : Nat) (vs : List Byte) (x : Nat)
    (h : ¬ (a ≤ x ∧ x < a + vs.length)) :
    Memory.read (Memory.writeBytes m a vs) x = Memory.read m x := by
  rw [Memory.read_writeBytes]
  split
  · next h1 => rw [List.getElem?_eq_none (by omega)]; rfl
  · rfl

/-! ## The canonical form -/

theorem Memory.wf_tail {c : Host.Cell} {m : Memory} (h : Memory.wf (c :: m) = true) : Memory.wf m = true := by
  cases m with
  | nil => rfl
  | cons d m => obtain ⟨a, v⟩ := c; obtain ⟨b, w⟩ := d; simp [Memory.wf] at h; exact h.2

theorem Memory.wf_cons {a : Nat} {v : Byte} {m : Memory} :
    Memory.wf ((a, v) :: m) = true ↔ Memory.wf m = true ∧ ∀ c ∈ m.head?, a < c.1 := by
  cases m with
  | nil => simp [Memory.wf]
  | cons d m => obtain ⟨b, w⟩ := d; simp [Memory.wf, and_comm]

/-- The head of a memory after a write is the head before it or the written cell. -/
theorem Memory.head_write (m : Memory) (a : Nat) (v : Byte) (c : Host.Cell)
    (h : c ∈ (Memory.write m a v).head?) : c = (a, v) ∨ c ∈ m.head? := by
  cases m with
  | nil => simp [Memory.write] at h; simp [h]
  | cons d m =>
    obtain ⟨b, w⟩ := d
    unfold Memory.write at h
    split at h
    · simp at h; simp [h]
    · split at h
      · simp at h; simp [h]
      · simp at h; simp [h]

theorem Memory.wf_write (m : Memory) (a : Nat) (v : Byte) (h : Memory.wf m = true) :
    Memory.wf (Memory.write m a v) = true := by
  induction m with
  | nil => rfl
  | cons c m ih =>
    obtain ⟨b, w⟩ := c
    have hm := Memory.wf_tail h
    unfold Memory.write
    split
    · next hab => exact Memory.wf_cons.2 ⟨h, by simpa using hab⟩
    · split
      · next hab => subst hab; exact Memory.wf_cons.2 (Memory.wf_cons.1 h)
      · next h1 h2 =>
        refine Memory.wf_cons.2 ⟨ih hm, fun c hc => ?_⟩
        rcases Memory.head_write m a v c hc with rfl | hc
        · show b < a; omega
        · exact (Memory.wf_cons.1 h).2 c hc

theorem Memory.wf_writeBytes (m : Memory) (a : Nat) (vs : List Byte) (h : Memory.wf m = true) :
    Memory.wf (Memory.writeBytes m a vs) = true := by
  induction vs generalizing m a with
  | nil => exact h
  | cons v vs ih => exact ih _ _ (Memory.wf_write m a v h)

theorem Memory.wf_reset : Memory.wf State.reset.mem = true := rfl

/-! ## Which cells are listed -/

theorem Memory.mem_write {m : Memory} {a : Nat} {v : Byte} {c : Host.Cell} (h : c ∈ Memory.write m a v) :
    c = (a, v) ∨ c ∈ m := by
  induction m with
  | nil => simpa [Memory.write] using h
  | cons d m ih =>
    obtain ⟨b, w⟩ := d
    unfold Memory.write at h
    split at h
    · simpa using h
    · split at h
      · rcases List.mem_cons.1 h with h | h
        · exact .inl h
        · exact .inr (List.mem_cons_of_mem _ h)
      · rcases List.mem_cons.1 h with h | h
        · exact .inr (h ▸ List.mem_cons_self)
        · exact (ih h).imp_right (List.mem_cons_of_mem _)

/-- The addresses after `writeBytes` are those before it and those written. -/
theorem Memory.mem_writeBytes {m : Memory} {a : Nat} {vs : List Byte} {c : Host.Cell}
    (h : c ∈ Memory.writeBytes m a vs) : (a ≤ c.1 ∧ c.1 < a + vs.length) ∨ c ∈ m := by
  induction vs generalizing m a with
  | nil => exact .inr h
  | cons v vs ih =>
    rcases ih h with h | h
    · left; simp only [List.length_cons]; omega
    · rcases Memory.mem_write h with rfl | h
      · left; simp only [List.length_cons]; omega
      · exact .inr h

end Sys2Proof.Machine
end

