-- ==== Sys2Proof/Laws/Operands.lean ====
section
/-! SUPPORT. The register operands: one lemma per operand per update of State, and what an operand is. -/

namespace Sys2Proof.Machine

variable (s : State)

/-! ## setKey -/

@[simp] theorem State.setKey_keyOp (v : Word) : (s.setKey (.put v)).keyOp = v := rfl
@[simp] theorem State.setKey_lfsrOp (v : Held Word) : (s.setKey v).lfsrOp = s.lfsrOp := rfl
@[simp] theorem State.setKey_srcOp (v : Held Word) : (s.setKey v).srcOp = s.srcOp := rfl
@[simp] theorem State.setKey_lenOp (v : Held Word) : (s.setKey v).lenOp = s.lenOp := rfl
@[simp] theorem State.setKey_dstOp (v : Held Word) : (s.setKey v).dstOp = s.dstOp := rfl
@[simp] theorem State.setKey_capOp (v : Held Word) : (s.setKey v).capOp = s.capOp := rfl
@[simp] theorem State.setKey_dictOp (v : Held Word) : (s.setKey v).dictOp = s.dictOp := rfl

/-! ## setLfsr -/

@[simp] theorem State.setLfsr_keyOp (v : Held Word) : (s.setLfsr v).keyOp = s.keyOp := rfl
@[simp] theorem State.setLfsr_lfsrOp (v : Word) : (s.setLfsr (.put v)).lfsrOp = v := rfl
@[simp] theorem State.setLfsr_srcOp (v : Held Word) : (s.setLfsr v).srcOp = s.srcOp := rfl
@[simp] theorem State.setLfsr_lenOp (v : Held Word) : (s.setLfsr v).lenOp = s.lenOp := rfl
@[simp] theorem State.setLfsr_dstOp (v : Held Word) : (s.setLfsr v).dstOp = s.dstOp := rfl
@[simp] theorem State.setLfsr_capOp (v : Held Word) : (s.setLfsr v).capOp = s.capOp := rfl
@[simp] theorem State.setLfsr_dictOp (v : Held Word) : (s.setLfsr v).dictOp = s.dictOp := rfl

/-! ## setSum -/

@[simp] theorem State.setSum_keyOp (v : Held Word) : (s.setSum v).keyOp = s.keyOp := rfl
@[simp] theorem State.setSum_lfsrOp (v : Held Word) : (s.setSum v).lfsrOp = s.lfsrOp := rfl
@[simp] theorem State.setSum_srcOp (v : Held Word) : (s.setSum v).srcOp = s.srcOp := rfl
@[simp] theorem State.setSum_lenOp (v : Held Word) : (s.setSum v).lenOp = s.lenOp := rfl
@[simp] theorem State.setSum_dstOp (v : Held Word) : (s.setSum v).dstOp = s.dstOp := rfl
@[simp] theorem State.setSum_capOp (v : Held Word) : (s.setSum v).capOp = s.capOp := rfl
@[simp] theorem State.setSum_dictOp (v : Held Word) : (s.setSum v).dictOp = s.dictOp := rfl

/-! ## setSrc -/

@[simp] theorem State.setSrc_keyOp (v : Held Nat) : (s.setSrc v).keyOp = s.keyOp := rfl
@[simp] theorem State.setSrc_lfsrOp (v : Held Nat) : (s.setSrc v).lfsrOp = s.lfsrOp := rfl
@[simp] theorem State.setSrc_srcOp (v : Nat) : (s.setSrc (.put v)).srcOp = v := rfl
@[simp] theorem State.setSrc_lenOp (v : Held Nat) : (s.setSrc v).lenOp = s.lenOp := rfl
@[simp] theorem State.setSrc_dstOp (v : Held Nat) : (s.setSrc v).dstOp = s.dstOp := rfl
@[simp] theorem State.setSrc_capOp (v : Held Nat) : (s.setSrc v).capOp = s.capOp := rfl
@[simp] theorem State.setSrc_dictOp (v : Held Nat) : (s.setSrc v).dictOp = s.dictOp := rfl

/-! ## setLen -/

@[simp] theorem State.setLen_keyOp (v : Held Nat) : (s.setLen v).keyOp = s.keyOp := rfl
@[simp] theorem State.setLen_lfsrOp (v : Held Nat) : (s.setLen v).lfsrOp = s.lfsrOp := rfl
@[simp] theorem State.setLen_srcOp (v : Held Nat) : (s.setLen v).srcOp = s.srcOp := rfl
@[simp] theorem State.setLen_lenOp (v : Nat) : (s.setLen (.put v)).lenOp = v := rfl
@[simp] theorem State.setLen_dstOp (v : Held Nat) : (s.setLen v).dstOp = s.dstOp := rfl
@[simp] theorem State.setLen_capOp (v : Held Nat) : (s.setLen v).capOp = s.capOp := rfl
@[simp] theorem State.setLen_dictOp (v : Held Nat) : (s.setLen v).dictOp = s.dictOp := rfl

/-! ## setDst -/

@[simp] theorem State.setDst_keyOp (v : Held Nat) : (s.setDst v).keyOp = s.keyOp := rfl
@[simp] theorem State.setDst_lfsrOp (v : Held Nat) : (s.setDst v).lfsrOp = s.lfsrOp := rfl
@[simp] theorem State.setDst_srcOp (v : Held Nat) : (s.setDst v).srcOp = s.srcOp := rfl
@[simp] theorem State.setDst_lenOp (v : Held Nat) : (s.setDst v).lenOp = s.lenOp := rfl
@[simp] theorem State.setDst_dstOp (v : Nat) : (s.setDst (.put v)).dstOp = v := rfl
@[simp] theorem State.setDst_capOp (v : Held Nat) : (s.setDst v).capOp = s.capOp := rfl
@[simp] theorem State.setDst_dictOp (v : Held Nat) : (s.setDst v).dictOp = s.dictOp := rfl

/-! ## setCap -/

@[simp] theorem State.setCap_keyOp (v : Held Nat) : (s.setCap v).keyOp = s.keyOp := rfl
@[simp] theorem State.setCap_lfsrOp (v : Held Nat) : (s.setCap v).lfsrOp = s.lfsrOp := rfl
@[simp] theorem State.setCap_srcOp (v : Held Nat) : (s.setCap v).srcOp = s.srcOp := rfl
@[simp] theorem State.setCap_lenOp (v : Held Nat) : (s.setCap v).lenOp = s.lenOp := rfl
@[simp] theorem State.setCap_dstOp (v : Held Nat) : (s.setCap v).dstOp = s.dstOp := rfl
@[simp] theorem State.setCap_capOp (v : Nat) : (s.setCap (.put v)).capOp = v := rfl
@[simp] theorem State.setCap_dictOp (v : Held Nat) : (s.setCap v).dictOp = s.dictOp := rfl

/-! ## setRlen -/

@[simp] theorem State.setRlen_keyOp (v : Held Nat) : (s.setRlen v).keyOp = s.keyOp := rfl
@[simp] theorem State.setRlen_lfsrOp (v : Held Nat) : (s.setRlen v).lfsrOp = s.lfsrOp := rfl
@[simp] theorem State.setRlen_srcOp (v : Held Nat) : (s.setRlen v).srcOp = s.srcOp := rfl
@[simp] theorem State.setRlen_lenOp (v : Held Nat) : (s.setRlen v).lenOp = s.lenOp := rfl
@[simp] theorem State.setRlen_dstOp (v : Held Nat) : (s.setRlen v).dstOp = s.dstOp := rfl
@[simp] theorem State.setRlen_capOp (v : Held Nat) : (s.setRlen v).capOp = s.capOp := rfl
@[simp] theorem State.setRlen_dictOp (v : Held Nat) : (s.setRlen v).dictOp = s.dictOp := rfl

/-! ## setDict -/

@[simp] theorem State.setDict_keyOp (i : BitVec 4) (v : Held Byte) : (s.setDict i v).keyOp = s.keyOp := rfl
@[simp] theorem State.setDict_lfsrOp (i : BitVec 4) (v : Held Byte) : (s.setDict i v).lfsrOp = s.lfsrOp := rfl
@[simp] theorem State.setDict_srcOp (i : BitVec 4) (v : Held Byte) : (s.setDict i v).srcOp = s.srcOp := rfl
@[simp] theorem State.setDict_lenOp (i : BitVec 4) (v : Held Byte) : (s.setDict i v).lenOp = s.lenOp := rfl
@[simp] theorem State.setDict_dstOp (i : BitVec 4) (v : Held Byte) : (s.setDict i v).dstOp = s.dstOp := rfl
@[simp] theorem State.setDict_capOp (i : BitVec 4) (v : Held Byte) : (s.setDict i v).capOp = s.capOp := rfl

/-! ## setMem -/

@[simp] theorem State.setMem_keyOp (m : Memory) : (s.setMem m).keyOp = s.keyOp := rfl
@[simp] theorem State.setMem_lfsrOp (m : Memory) : (s.setMem m).lfsrOp = s.lfsrOp := rfl
@[simp] theorem State.setMem_srcOp (m : Memory) : (s.setMem m).srcOp = s.srcOp := rfl
@[simp] theorem State.setMem_lenOp (m : Memory) : (s.setMem m).lenOp = s.lenOp := rfl
@[simp] theorem State.setMem_dstOp (m : Memory) : (s.setMem m).dstOp = s.dstOp := rfl
@[simp] theorem State.setMem_capOp (m : Memory) : (s.setMem m).capOp = s.capOp := rfl
@[simp] theorem State.setMem_dictOp (m : Memory) : (s.setMem m).dictOp = s.dictOp := rfl

/-! ## setCursors -/

@[simp] theorem State.setCursors_keyOp (c : Option Cursors) : (s.setCursors c).keyOp = s.keyOp := rfl
@[simp] theorem State.setCursors_lfsrOp (c : Option Cursors) : (s.setCursors c).lfsrOp = s.lfsrOp := rfl
@[simp] theorem State.setCursors_srcOp (c : Option Cursors) : (s.setCursors c).srcOp = s.srcOp := rfl
@[simp] theorem State.setCursors_lenOp (c : Option Cursors) : (s.setCursors c).lenOp = s.lenOp := rfl
@[simp] theorem State.setCursors_dstOp (c : Option Cursors) : (s.setCursors c).dstOp = s.dstOp := rfl
@[simp] theorem State.setCursors_capOp (c : Option Cursors) : (s.setCursors c).capOp = s.capOp := rfl
@[simp] theorem State.setCursors_dictOp (c : Option Cursors) : (s.setCursors c).dictOp = s.dictOp := rfl

/-! ## setRecord -/

@[simp] theorem State.setRecord_keyOp (r : Record) : (s.setRecord r).keyOp = s.keyOp := rfl
@[simp] theorem State.setRecord_lfsrOp (r : Record) : (s.setRecord r).lfsrOp = s.lfsrOp := rfl
@[simp] theorem State.setRecord_srcOp (r : Record) : (s.setRecord r).srcOp = s.srcOp := rfl
@[simp] theorem State.setRecord_lenOp (r : Record) : (s.setRecord r).lenOp = s.lenOp := rfl
@[simp] theorem State.setRecord_dstOp (r : Record) : (s.setRecord r).dstOp = s.dstOp := rfl
@[simp] theorem State.setRecord_capOp (r : Record) : (s.setRecord r).capOp = s.capOp := rfl

/-! ## answer -/

@[simp] theorem State.answer_keyOp (v : Nat) : (s.answer v).keyOp = s.keyOp := rfl
@[simp] theorem State.answer_lfsrOp (v : Nat) : (s.answer v).lfsrOp = s.lfsrOp := rfl
@[simp] theorem State.answer_srcOp (v : Nat) : (s.answer v).srcOp = s.srcOp := rfl
@[simp] theorem State.answer_lenOp (v : Nat) : (s.answer v).lenOp = s.lenOp := rfl
@[simp] theorem State.answer_dstOp (v : Nat) : (s.answer v).dstOp = s.dstOp := rfl
@[simp] theorem State.answer_capOp (v : Nat) : (s.answer v).capOp = s.capOp := rfl
@[simp] theorem State.answer_dictOp (v : Nat) : (s.answer v).dictOp = s.dictOp := rfl

/-! ## setPending -/

@[simp] theorem State.setPending_keyOp (p : List Event) : (s.setPending p).keyOp = s.keyOp := rfl
@[simp] theorem State.setPending_lfsrOp (p : List Event) : (s.setPending p).lfsrOp = s.lfsrOp := rfl
@[simp] theorem State.setPending_srcOp (p : List Event) : (s.setPending p).srcOp = s.srcOp := rfl
@[simp] theorem State.setPending_lenOp (p : List Event) : (s.setPending p).lenOp = s.lenOp := rfl
@[simp] theorem State.setPending_dstOp (p : List Event) : (s.setPending p).dstOp = s.dstOp := rfl
@[simp] theorem State.setPending_capOp (p : List Event) : (s.setPending p).capOp = s.capOp := rfl
@[simp] theorem State.setPending_dictOp (p : List Event) : (s.setPending p).dictOp = s.dictOp := rfl

/-! ## What an operand is -/

variable {s}

theorem State.keyOp_known (h : s.key.known = true) : s.keyOp = s.key.val := Held.observe_known _ _ h
theorem State.lfsrOp_known (h : s.lfsr.known = true) : s.lfsrOp = s.lfsr.val := Held.observe_known _ _ h
theorem State.srcOp_known (h : s.src.known = true) : s.srcOp = s.src.val := Held.observe_known _ _ h
theorem State.lenOp_known (h : s.len.known = true) : s.lenOp = s.len.val := Held.observe_known _ _ h
theorem State.dstOp_known (h : s.dst.known = true) : s.dstOp = s.dst.val := Held.observe_known _ _ h
theorem State.capOp_known (h : s.cap.known = true) : s.capOp = s.cap.val := Held.observe_known _ _ h
theorem State.dictOp_known {i : BitVec 4} (h : (s.dictEntry i).known = true) : s.dictOp i = (s.dictEntry i).val :=
  Held.observe_known _ _ h

end Sys2Proof.Machine
end

