-- ==== Sys2Proof/Machine/Reference.lean ====
section
/-! DEFINITION. The spec's closed forms of the two loops, in which statements are written: the keystream (R153), the
expansion of a stream (R176), and the inverse of the LFSR transition (R160). No meaning uses them. -/

namespace Sys2Proof.Machine

/-- R153: `S_j`, the state that supplies keystream bytes `2j` and `2j + 1`. -/
def cipherState (K : Word) (j : Nat) : Word := lfsrStep^[j + 1] K

/-- R153: keystream byte `i` under key `K`. -/
def ks (K : Word) (i : Nat) : Byte :=
  if i % 2 = 0 then lowByte (cipherState K (i / 2)) else highByte (cipherState K (i / 2))

/-- R156: byte `i` of the result is byte `i` of the data XOR `ks(K, i)`. -/
def cipherBytes (K : Word) (bs : List Byte) : List Byte := bs.mapIdx fun i b => b ^^^ ks K i

/-- R160: the one state before `t`. -/
def lfsrUnstep (t : Word) : Word :=
  (t <<< 1) ||| (BitVec.ofBool (((t.getLsbD 15 ^^ t.getLsbD 10) ^^ t.getLsbD 12) ^^ t.getLsbD 13)).setWidth 16

/-- R176: the unbounded expansion of a stream under a dictionary. -/
def expand (D : BitVec 4 → Byte) : List Byte → List Byte
  | [] => []
  | [b] => [b]
  | b :: B :: r =>
    if b = 0x07#8 then
      if B = 0x00#8 then 0x07#8 :: expand D r
      else List.replicate (highNibble B).toNat (D (lowNibble B)) ++ expand D r
    else b :: expand D (B :: r)

/-- R242: the DICT entries named by the RUN tokens of nonzero count that DECOMP executes on a stream with `room` bytes
of output left; it executes no token once the output is full (R177). -/
def runEntries : (room : Nat) → List Byte → List (BitVec 4)
  | _, [] => []
  | _, [_] => []
  | room, b :: B :: r =>
    if room = 0 then []
    else if b = 0x07#8 then
      if B = 0x00#8 then runEntries (room - 1) r
      else if highNibble B = 0#4 then runEntries room r
      else lowNibble B :: runEntries (room - (highNibble B).toNat) r
    else runEntries (room - 1) (B :: r)

/-- The dictionary DECOMP uses. -/
def State.dictBytes (s : State) : BitVec 4 → Byte := s.dictOp

/-- The content of the whole input region. -/
def State.input (s : State) : List Byte := s.inBytes 0 s.lenOp

end Sys2Proof.Machine
end

