-- ==== Sys2Proof/Safety.lean ====
section
/-! DEFINITION. The terms in which statements speak of states: register contents, frames, launch premises (R246), and
the invariant of the machine. -/

namespace Sys2Proof.Machine

/-- What stands in a register, whether it is `unspecified` or not: the value and the mark. CKMATCH is the derived bit
of R35; CMD holds nothing (R28). -/
def State.content (s : State) : Reg → Nat × Bool
  | .cmd => (0, false)
  | .key => (s.key.val.toNat, s.key.known)
  | .lfsr => (s.lfsr.val.toNat, s.lfsr.known)
  | .sum => (s.sum.val.toNat, s.sum.known)
  | .src => (s.src.val, s.src.known)
  | .len => (s.len.val, s.len.known)
  | .dst => (s.dst.val, s.dst.known)
  | .cap => (s.cap.val, s.cap.known)
  | .rlen => (s.rlen.val, s.rlen.known)
  | .valid => (s.valid.toNat, true)
  | .comp => (s.comp.val.toNat, s.comp.known)
  | .enc => (s.enc.val.toNat, s.enc.known)
  | .csum => (s.csum.val.toNat, s.csum.known)
  | .ckval => (s.ckval.val.toNat, s.ckval.known)
  | .hlen => (s.hlen.val, s.hlen.known)
  | .rej => (s.rej.toNat, true)
  | .ckmatch => ((s.sum.val == s.ckval.val).toNat, s.sum.known && s.ckval.known)
  | .dict i => ((s.dictEntry i).val.toNat, (s.dictEntry i).known)

/-- A register is `unspecified` (R37). -/
def State.isUnspecified (s : State) (r : Reg) : Prop := (s.content r).2 = false

/-- The frame rule R12 between two states: every register but those of `regs`, and every byte of MEM but those at the
addresses `bytes`, is as before. -/
structure Frame (s t : State) (regs : List Reg) (bytes : Nat → Prop) : Prop where
  regs_same : ∀ r, r ∉ regs → t.content r = s.content r
  mem_same : ∀ a, ¬ bytes a → Memory.read t.mem a = Memory.read s.mem a

/-- The host port is as before: what is pending, what the host has been told, and the draw. -/
structure SamePort (s t : State) : Prop where
  pending : t.pending = s.pending
  answers : t.answers = s.answers
  draws : t.draws = s.draws

/-- The host port is as before and no DECOMP has begun or ended: what a whole command leaves. -/
structure Quiet (s t : State) : Prop where
  port : SamePort s t
  cursors : t.cursors = s.cursors

/-- No address: the bytes a form stores to, for a form that stores nothing. -/
def noBytes (_ : Nat) : Prop := False

/-- The addresses of `n` bytes from `a`. -/
def bytesAt (a n : Nat) (x : Nat) : Prop := a ≤ x ∧ x < a + n

/-- The registers PARSE writes (R29, R34), and CKMATCH, which depends on one of them. -/
def recordRegs : List Reg :=
  [.valid, .rej, .comp, .enc, .csum, .hlen, .ckval, .ckmatch, .dict 0, .dict 1, .dict 2, .dict 3, .dict 4, .dict 5,
   .dict 6, .dict 7, .dict 8, .dict 9, .dict 10, .dict 11, .dict 12, .dict 13, .dict 14, .dict 15]

/-- R130: `t` is `s` after a rejection with a cause: VALID and REJ, everything else of the record `unspecified`, and
nothing else changed. -/
structure RejectedTo (s t : State) (cause : BitVec 3) : Prop where
  valid : t.valid = false
  rej : t.rej = cause
  others : ∀ r ∈ [Reg.comp, .enc, .csum, .hlen, .ckval], t.isUnspecified r
  dict : ∀ i, t.isUnspecified (.dict i)
  frame : Frame s t recordRegs noBytes
  quiet : Quiet s t

/-- `bs` are the bytes written at `a`, `a + 1`, .... -/
def State.Holds (s : State) (a : Nat) (bs : List Byte) : Prop :=
  ∀ i (h : i < bs.length), Memory.read s.mem (a + i) = some bs[i]

/-- R64 for the input region: `SRC + LEN <= 2^AW`. -/
def State.InputInRange (s : State) : Prop := s.srcOp + s.lenOp ≤ Config.space

/-- R64 for the output region: `DST + CAP <= 2^AW`. -/
def State.OutputInRange (s : State) : Prop := s.dstOp + s.capOp ≤ Config.space

/-- R65: the two regions share no address. -/
def State.RegionsDisjoint (s : State) : Prop :=
  ∀ i j, i < s.lenOp → j < s.capOp → s.srcOp + i ≠ s.dstOp + j

/-- R246: the two region premises of DECRYPT and DECOMP. -/
structure State.Launchable (s : State) : Prop where
  input : s.InputInRange
  output : s.OutputInRange
  disjoint : s.RegionsDisjoint

/-- R96: the five commands. -/
def commands : List Instr := [.parse, .cksum, .step, .decrypt, .decomp]

/-- Every byte `in[i]` for `i < n` has been written. -/
def State.InputWritten (s : State) (n : Nat) : Prop := ∀ i, i < n → (Memory.read s.mem (s.srcOp + i)).isSome = true

/-- R242, R246: the premise `OperandsWritten` of each command. A command for which it fails is not refused, it runs on
drawn values, as U5 allows (assumption log 5). The other rows have no operand that can be `unspecified` but RUN, whose
premise is its DECOMP's. -/
def OperandsWritten (i : Instr) (s : State) : Prop :=
  match i with
  | .parse => s.src.known = true ∧ s.len.known = true ∧ s.InputWritten (min s.lenOp 22)
  | .cksum => s.src.known = true ∧ s.len.known = true ∧ s.InputWritten s.lenOp
  | .step => s.lfsr.known = true
  | .decrypt =>
    s.key.known = true ∧ s.src.known = true ∧ s.len.known = true ∧ s.dst.known = true ∧ s.cap.known = true ∧
      s.InputWritten (min s.lenOp s.capOp)
  | .decomp =>
    s.src.known = true ∧ s.len.known = true ∧ s.dst.known = true ∧ s.cap.known = true ∧ s.InputWritten s.lenOp ∧
      ∀ n ∈ runEntries s.capOp s.input, (s.dictEntry n).known = true
  | .reserved000 => True
  | .reserved110 => True
  | .reserved111 => True
  | .lit _ => True
  | .esclit => True
  | .run _ _ => True
  | .esceof => True
  | .header _ => True

/-- The state in which the host has written every operand register, every DICT entry and the whole input region, each
at the value a command draws for it. -/
def State.drawn (s : State) : State :=
  { s with
    key := .put s.keyOp, lfsr := .put s.lfsrOp, src := .put s.srcOp, len := .put s.lenOp, dst := .put s.dstOp,
    cap := .put s.capOp, dict := table16 fun i => .put (s.dictOp (BitVec.ofNat 4 i)),
    mem := Memory.writeBytes s.mem s.srcOp s.input }

/-- The same state with other free values. -/
def State.redrawn (s : State) (draw : Nat) : State := { s with draws := draw }

/-- The cursors of a DECOMP in progress stay inside its regions (R40), which stay as R64 and R65 ask. -/
structure State.CursorsOk (s : State) (c : Cursors) : Prop where
  ic : c.ic ≤ s.lenOp
  oc : c.oc ≤ s.capOp
  launch : s.Launchable

/-- What holds of every state the machine can be in. -/
structure State.Inv (s : State) : Prop where
  /-- MEM is in its canonical form. -/
  memWf : Memory.wf s.mem = true
  /-- R60: every cell has an address below `2^AW`. -/
  memSpace : ∀ c ∈ s.mem, c.1 < Config.space
  /-- R20: the `AW`-bit registers hold `AW` bits. -/
  sizes : ∀ v ∈ [s.src.val, s.len.val, s.dst.val, s.cap.val, s.rlen.val, s.hlen.val], v < Config.space
  /-- R34: codes 6 and 7 never occur. -/
  rejLegal : s.rej.toNat ≤ 5
  /-- R34: `VALID = 1` implies `REJ = 0`. -/
  rejNone : s.valid = true → s.rej = 0#3
  /-- R29, R31: an accepted record has its flags. -/
  acceptedFlags : s.valid = true → s.comp.known = true ∧ s.enc.known = true ∧ s.csum.known = true
  /-- R33, R128: an accepted record has its HLEN. -/
  acceptedHlen : s.valid = true → s.hlen = .put (4 + 16 * s.comp.val.toNat + 2 * s.csum.val.toNat)
  /-- R32: CKVAL holds a value exactly after an accepted header with the checksummed flag. -/
  ckvalKnown : s.ckval.known = (s.valid && s.csum.val)
  /-- R27: every DICT entry holds a value after an accepted header with the compressed flag. -/
  acceptedDict : s.valid = true → s.comp.val = true → ∀ i, (s.dictEntry i).known = true
  /-- R30, R44: while `VALID = 0` the record is `unspecified`. -/
  rejectedRecord : s.valid = false →
    s.comp.known = false ∧ s.enc.known = false ∧ s.csum.known = false ∧ s.hlen.known = false
  /-- R40. -/
  cursors : ∀ c, s.cursors = some c → s.CursorsOk c

/-- R13: a run of the machine from reset on a list of events from outside. -/
def runFromReset (events : List Event) : Host.Outcome State Fault Refusal :=
  Host.Core.run Sys2Proof.core events.length (State.reset.setPending events)

end Sys2Proof.Machine
end

