-- ==== Sys2Proof/Laws/Ops.lean ====
section
/-! SUPPORT. One lemma per shared operation that says what it does, for the provers to cite instead of unfolding. -/

namespace Sys2Proof.Laws

/-- `Config.inSpace n` says `n <= 2^AW` (R64). -/
theorem inSpace_iff (n : Nat) : Config.inSpace n = true ↔ n ≤ Config.space := by
  have h : 32 ≤ Config.space := by
    unfold Config.space Config.aw
    rw [Nat.pow_add]
    have := Nat.one_le_two_pow (n := Config.spareAddressBits)
    omega
  simp only [Config.inSpace, Bool.or_eq_true, decide_eq_true_eq]
  omega

theorem space_ge : 32 ≤ Config.space := (inSpace_iff 32).1 (by decide)

theorem freeSize_lt (draw reg : Nat) : Config.freeSize draw reg < Config.space :=
  Nat.mod_lt _ (by have := space_ge; omega)

/-- R190: for every register, `fits` says `v < 2^width`. -/
theorem fits_iff (r : Reg) (v : Nat) : r.fits v = true ↔ v < 2 ^ r.width := by
  cases r <;> first | exact inSpace_iff (v + 1) | exact decide_eq_true_iff

end Sys2Proof.Laws

namespace Sys2Proof

/-! ## Tables of sixteen -/

@[simp] theorem table16_getElem {α : Type} (f : Nat → α) (i : Nat) (h : i < 16) : (table16 f)[i] = f i := by
  simp [table16]

end Sys2Proof

namespace Sys2Proof.Machine

variable {s t : State}

/-! ## DICT -/

theorem State.dictEntry_setDict (i j : BitVec 4) (v : Held Byte) :
    (s.setDict i v).dictEntry j = if i = j then v else s.dictEntry j := by
  simp only [State.dictEntry, State.setDict_dict, Vector.getElem_set, BitVec.toNat_inj]

/-! ## Regions and launches -/

theorem State.inputInRange_iff : s.inputInRange = true ↔ s.InputInRange := Laws.inSpace_iff _

theorem State.outputInRange_iff : s.outputInRange = true ↔ s.OutputInRange := Laws.inSpace_iff _

theorem State.regionsDisjoint_iff : s.regionsDisjoint = true ↔ s.RegionsDisjoint := by
  simp only [State.regionsDisjoint, Bool.or_eq_true, beq_iff_eq, decide_eq_true_eq, State.RegionsDisjoint]
  constructor
  · intro h i j hi hj; omega
  · intro h
    by_contra hc
    push Not at hc
    obtain ⟨⟨⟨h1, h2⟩, h3⟩, h4⟩ := hc
    by_cases hle : s.srcOp ≤ s.dstOp
    · exact h (s.dstOp - s.srcOp) 0 (by omega) (by omega) (by omega)
    · exact h 0 (s.srcOp - s.dstOp) (by omega) (by omega) (by omega)

/-- A command on the input region runs exactly when that region is in range. -/
theorem launchIn_run {run : State → Result} (h : s.InputInRange) : launchIn s run = run s := by
  rw [launchIn, if_pos (State.inputInRange_iff.2 h)]

theorem launchIn_refuses {run : State → Result} (h : ¬ s.InputInRange) :
    launchIn s run = .refused .regionsOutOfRange := by
  rw [launchIn, if_neg (fun c => h (State.inputInRange_iff.1 c))]

/-- A command on both regions runs exactly on its launch premises. -/
theorem launchInOut_run {run : State → Result} (h : s.Launchable) : launchInOut s run = run s := by
  rw [launchInOut, if_pos (by simp [State.inputInRange_iff.2 h.input, State.outputInRange_iff.2 h.output]),
    if_pos (State.regionsDisjoint_iff.2 h.disjoint)]

theorem launchInOut_outOfRange {run : State → Result} (h : ¬ (s.InputInRange ∧ s.OutputInRange)) :
    launchInOut s run = .refused .regionsOutOfRange := by
  rw [launchInOut, if_neg]
  intro c
  rw [Bool.and_eq_true] at c
  exact h ⟨State.inputInRange_iff.1 c.1, State.outputInRange_iff.1 c.2⟩

theorem launchInOut_overlap {run : State → Result} (h1 : s.InputInRange) (h2 : s.OutputInRange)
    (h : ¬ s.RegionsDisjoint) : launchInOut s run = .refused .regionsOverlap := by
  rw [launchInOut, if_pos (by simp [State.inputInRange_iff.2 h1, State.outputInRange_iff.2 h2]),
    if_neg (fun c => h (State.regionsDisjoint_iff.1 c))]

/-- All that a launch on both regions can answer. -/
theorem launchInOut_cases (s : State) (run : State → Result) :
    (s.Launchable ∧ launchInOut s run = run s) ∨
    (¬ (s.InputInRange ∧ s.OutputInRange) ∧ launchInOut s run = .refused .regionsOutOfRange) ∨
    ((s.InputInRange ∧ s.OutputInRange ∧ ¬ s.RegionsDisjoint) ∧ launchInOut s run = .refused .regionsOverlap) := by
  by_cases h1 : s.InputInRange ∧ s.OutputInRange
  · by_cases h2 : s.RegionsDisjoint
    · exact .inl ⟨⟨h1.1, h1.2, h2⟩, launchInOut_run ⟨h1.1, h1.2, h2⟩⟩
    · exact .inr (.inr ⟨⟨h1.1, h1.2, h2⟩, launchInOut_overlap h1.1 h1.2 h2⟩)
  · exact .inr (.inl ⟨h1, launchInOut_outOfRange h1⟩)

/-- All that a launch on the input region can answer. -/
theorem launchIn_cases (s : State) (run : State → Result) :
    (s.InputInRange ∧ launchIn s run = run s) ∨
    (¬ s.InputInRange ∧ launchIn s run = .refused .regionsOutOfRange) := by
  by_cases h : s.InputInRange
  · exact .inl ⟨h, launchIn_run h⟩
  · exact .inr ⟨h, launchIn_refuses h⟩

theorem execParse_outOfRange (h : ¬ s.InputInRange) : execParse s = .refused .regionsOutOfRange := launchIn_refuses h

theorem execCksum_outOfRange (h : ¬ s.InputInRange) : execCksum s = .refused .regionsOutOfRange := launchIn_refuses h

theorem execDecrypt_outOfRange (h : ¬ (s.InputInRange ∧ s.OutputInRange)) :
    execDecrypt s = .refused .regionsOutOfRange := launchInOut_outOfRange h

theorem execDecomp_outOfRange (h : ¬ (s.InputInRange ∧ s.OutputInRange)) :
    execDecomp s = .refused .regionsOutOfRange := launchInOut_outOfRange h

theorem execDecrypt_overlap (h1 : s.InputInRange) (h2 : s.OutputInRange) (h : ¬ s.RegionsDisjoint) :
    execDecrypt s = .refused .regionsOverlap := launchInOut_overlap h1 h2 h

theorem execDecomp_overlap (h1 : s.InputInRange) (h2 : s.OutputInRange) (h : ¬ s.RegionsDisjoint) :
    execDecomp s = .refused .regionsOverlap := launchInOut_overlap h1 h2 h

/-- PARSE with its premise met. -/
theorem execParse_runs (h : s.InputInRange) :
    execParse s =
      match decodeHeader s.headerBytes with
      | .error cause => .next (s.reject cause.code)
      | .ok (hd, _) => .next (s.accept hd) := launchIn_run h

/-- CKSUM with its premise met. -/
theorem execCksum_runs (h : s.InputInRange) :
    execCksum s = .next (s.setSum (.put (sum16 (s.inBytes 0 s.lenOp)))) := launchIn_run h

/-- DECRYPT with its premises met. -/
theorem execDecrypt_runs (h : s.Launchable) :
    execDecrypt s =
      .next (((s.output 0 (cipherLoop false (lfsrStep s.keyOp) s.cipherInput).1).setLfsr
        (.put (cipherLoop false (lfsrStep s.keyOp) s.cipherInput).2)).setRlen
        (.put (cipherLoop false (lfsrStep s.keyOp) s.cipherInput).1.length)) := launchInOut_run h

/-- DECOMP with its premises met. -/
theorem execDecomp_runs (h : s.Launchable) :
    execDecomp s = decompLoop (s.lenOp + 1) (s.setCursors (some ⟨0, 0⟩)) := launchInOut_run h

/-- When DECRYPT runs and when it is refused. -/
theorem execDecrypt_cases (s : State) :
    s.Launchable ∨
    (¬ (s.InputInRange ∧ s.OutputInRange) ∧ execDecrypt s = .refused .regionsOutOfRange) ∨
    ((s.InputInRange ∧ s.OutputInRange ∧ ¬ s.RegionsDisjoint) ∧ execDecrypt s = .refused .regionsOverlap) :=
  (launchInOut_cases s fun s =>
    let r := cipherLoop false (lfsrStep s.keyOp) s.cipherInput
    .next (((s.output 0 r.1).setLfsr (.put r.2)).setRlen (.put r.1.length))).imp_left And.left

/-- When DECOMP runs and when it is refused. -/
theorem execDecomp_cases (s : State) :
    s.Launchable ∨
    (¬ (s.InputInRange ∧ s.OutputInRange) ∧ execDecomp s = .refused .regionsOutOfRange) ∨
    ((s.InputInRange ∧ s.OutputInRange ∧ ¬ s.RegionsDisjoint) ∧ execDecomp s = .refused .regionsOverlap) :=
  (launchInOut_cases s fun s => decompLoop (s.lenOp + 1) (s.setCursors (some ⟨0, 0⟩))).imp_left And.left

/-! ## Input bytes -/

@[simp] theorem State.length_inBytes (i n : Nat) : (s.inBytes i n).length = n := by simp [State.inBytes]

@[simp] theorem State.getElem_inBytes (i n j : Nat) (h : j < (s.inBytes i n).length) :
    (s.inBytes i n)[j] = s.inByte (i + j) := by simp [State.inBytes]

/-- A byte that has been written is what a command gets. -/
theorem State.byteAt_written {a : Nat} {v : Byte} (h : Memory.read s.mem a = some v) : s.byteAt a = v := by
  simp [State.byteAt, h]

/-- `byteAt` sees of the state only the cell and the draw. -/
theorem State.byteAt_congr {a : Nat} (hm : Memory.read t.mem a = Memory.read s.mem a) (hd : t.draws = s.draws) :
    t.byteAt a = s.byteAt a := by simp [State.byteAt, hm, hd]

/-! ## Output -/

theorem State.output_inside (i : Nat) (vs : List Byte) (j : Nat) (h : j < vs.length) :
    Memory.read (s.output i vs).mem (s.dstOp + i + j) = some vs[j] :=
  Memory.read_writeBytes_inside _ _ _ _ h

theorem State.output_outside (i : Nat) (vs : List Byte) (x : Nat)
    (h : ¬ bytesAt (s.dstOp + i) vs.length x) :
    Memory.read (s.output i vs).mem x = Memory.read s.mem x :=
  Memory.read_writeBytes_outside _ _ _ _ h

theorem State.room_le (oc n : Nat) : s.room oc n ≤ n := Nat.min_le_left _ _

theorem State.room_fits {oc : Nat} (n : Nat) (h : oc ≤ s.capOp) : oc + s.room oc n ≤ s.capOp := by
  simp only [State.room]; omega

/-- All that `emit` can answer. -/
theorem State.emit_next {used n : Nat} {v : Byte} (h : s.emit used n v = .next t) :
    ∃ c, s.cursors = some c ∧
      t = (s.output c.oc (List.replicate (s.room c.oc n) v)).setCursors
        (some ⟨c.ic + used, c.oc + s.room c.oc n⟩) := by
  unfold State.emit at h
  split at h
  · cases h
  · next c hc => exact ⟨c, hc, by cases h; rfl⟩

/-- With a DECOMP running, `emit` goes on. -/
theorem State.emit_running {c : Cursors} (hc : s.cursors = some c) (used n : Nat) (v : Byte) :
    s.emit used n v = .next ((s.output c.oc (List.replicate (s.room c.oc n) v)).setCursors
      (some ⟨c.ic + used, c.oc + s.room c.oc n⟩)) := by
  simp [State.emit, hc]

/-! ## Tokens -/

/-- How many input bytes a token takes (R97). -/
def tokenUsed : Token → Nat
  | .lit _ => 1
  | .esclit => 2
  | .run _ _ => 2
  | .esceof => 1

/-- How many output bytes a token asks for. -/
def tokenCount : Token → Nat
  | .lit _ => 1
  | .esclit => 1
  | .run c _ => c.toNat
  | .esceof => 1

/-- The byte a token writes. -/
def tokenByte (s : State) : Token → Byte
  | .lit b => b
  | .esclit => 0x07#8
  | .run _ n => s.dictOp n
  | .esceof => 0x07#8

/-- Every token is one `emit`. -/
theorem execToken_eq (tok : Token) (s : State) :
    execToken tok s = s.emit (tokenUsed tok) (tokenCount tok) (tokenByte s tok) := by
  cases tok <;> rfl

/-- The token arms of `exec` are `execToken`. -/
theorem exec_token (tok : Token) (s : State) : exec tok.toInstr s = execToken tok s := by
  cases tok <;> rfl

/-- A token is decoded wherever a byte is left, and it takes as many bytes as are gone. -/
theorem decodeToken_some {bs : List Byte} (h : bs ≠ []) :
    ∃ tok rest, decodeToken bs = some (tok, rest) ∧ bs.length = tokenUsed tok + rest.length := by
  match bs, h with
  | [b], _ =>
    by_cases hb : b = 0x07#8
    · exact ⟨.esceof, [], by simp [decodeToken, hb], by simp [tokenUsed]⟩
    · exact ⟨.lit b, [], by simp [decodeToken, hb], by simp [tokenUsed]⟩
  | b :: B :: rest, _ =>
    by_cases hb : b = 0x07#8
    · by_cases hB : B = 0x00#8
      · exact ⟨.esclit, rest, by simp [decodeToken, hb, hB], by simp [tokenUsed]; omega⟩
      · exact ⟨.run (highNibble B) (lowNibble B), rest, by simp [decodeToken, hb, hB], by simp [tokenUsed]; omega⟩
    · exact ⟨.lit b, B :: rest, by simp [decodeToken, hb], by simp [tokenUsed]; omega⟩

/-- All that one turn of DECOMP can answer: it ends the command, or it runs one token inside the input region. -/
theorem tokenStep_next {c : Cursors} (hc : s.cursors = some c) (h : tokenStep s c = .next t) :
    (t = s.finish c ∧ (s.lenOp ≤ c.ic ∨ s.capOp ≤ c.oc)) ∨
    ∃ tok rest, decodeToken (s.tokenBytes c.ic) = some (tok, rest) ∧ c.ic < s.lenOp ∧ c.oc < s.capOp ∧
      c.ic + tokenUsed tok ≤ s.lenOp ∧
      t = (s.output c.oc (List.replicate (s.room c.oc (tokenCount tok)) (tokenByte s tok))).setCursors
        (some ⟨c.ic + tokenUsed tok, c.oc + s.room c.oc (tokenCount tok)⟩) := by
  unfold tokenStep at h
  split at h
  · next hlt =>
    have hne : s.tokenBytes c.ic ≠ [] := by
      intro e
      have := congrArg List.length e
      simp [State.tokenBytes] at this
      omega
    obtain ⟨tok, rest, hd, hl⟩ := decodeToken_some hne
    rw [hd] at h
    dsimp only at h
    rw [execToken_eq, State.emit_running hc] at h
    refine .inr ⟨tok, rest, hd, hlt.1, hlt.2, ?_, by cases h; rfl⟩
    simp [State.tokenBytes] at hl
    omega
  · next hge => exact .inl ⟨by cases h; rfl, by omega⟩

/-- One turn of DECOMP always goes on. -/
theorem tokenStep_goes_on {c : Cursors} (hc : s.cursors = some c) : ∃ t, tokenStep s c = .next t := by
  unfold tokenStep
  split
  · next hlt =>
    split
    · rw [execToken_eq, State.emit_running hc]; exact ⟨_, rfl⟩
    · exact ⟨_, rfl⟩
  · exact ⟨_, rfl⟩

/-! ## Chains and steps -/

@[simp] theorem andThen_next {α β : Type} (a : α) (k : α → Host.Outcome β Fault Refusal) :
    andThen (.next a) k = k a := rfl

theorem andThen_eq_next {α β : Type} {o : Host.Outcome α Fault Refusal} {k : α → Host.Outcome β Fault Refusal}
    {b : β} (h : andThen o k = .next b) : ∃ a, o = .next a ∧ k a = .next b := by
  cases o with
  | next a => exact ⟨a, rfl, h⟩
  | fault f => cases h
  | refused r => cases h

/-- All that a step can be. -/
theorem step_cases (s : State) :
    (∃ c, s.cursors = some c ∧ step s = tokenStep s c) ∨
    (s.cursors = none ∧ s.pending = [] ∧ step s = .next s) ∨
    (∃ e rest, s.cursors = none ∧ s.pending = e :: rest ∧ step s = eventStep e (s.setPending rest)) := by
  unfold step
  cases hc : s.cursors with
  | some c => exact .inl ⟨c, rfl, rfl⟩
  | none =>
    cases hp : s.pending with
    | nil => exact .inr (.inl ⟨rfl, rfl, rfl⟩)
    | cons e rest => exact .inr (.inr ⟨e, rest, rfl, rfl, rfl⟩)

/-- A run of `k + 1` steps whose first step goes on is a run of `k` steps from there. -/
theorem run_succ_of_next {s t : State} (h : step s = .next t) (k : Nat) :
    Host.Core.run core (k + 1) s = Host.Core.run core k t := by
  have e : core.step s = .next t := h
  simp only [Host.Core.run, e]

/-- All that a host action that goes on can have done. -/
theorem hostAct_next {a : HostAction} (h : hostAct a s = .next t) :
    (∃ r v, (a = .writeReg r v) ∧ r ≠ .cmd ∧ r.hostWrites = true ∧ v < 2 ^ r.width ∧ t = s.writeReg r v) ∨
    (∃ c, (a = .issue c ∨ a = .writeReg .cmd c.toNat) ∧ exec (decodeCommand c) s = .next t) ∨
    (∃ r, a = .readReg r ∧ r.hostReads = true ∧ t = s.answer (s.readReg r)) ∨
    (∃ x b, a = .writeMem x b ∧ x < Config.space ∧ t = s.setMem (Memory.write s.mem x b)) ∨
    (∃ x, a = .readMem x ∧ x < Config.space ∧ t = s.answer (s.byteAt x).toNat) := by
  cases a with
  | writeReg r v =>
    simp only [hostAct, hostWriteReg] at h
    split at h
    · next hw =>
      split at h
      · next hf =>
        have hv := (Laws.fits_iff r v).1 hf
        split at h
        · next hr =>
          subst hr
          refine .inr (.inl ⟨BitVec.ofNat 3 v, .inr ?_, h⟩)
          have : v < 8 := hv
          simp [BitVec.toNat_ofNat, Nat.mod_eq_of_lt this]
        · next hr => exact .inl ⟨r, v, rfl, hr, hw, hv, by cases h; rfl⟩
      · cases h
    · cases h
  | readReg r =>
    simp only [hostAct, hostReadReg] at h
    split at h
    · next hr => exact .inr (.inr (.inl ⟨r, rfl, hr, by cases h; rfl⟩))
    · cases h
  | writeMem x b =>
    simp only [hostAct, hostWriteMem] at h
    split at h
    · next hx => exact .inr (.inr (.inr (.inl ⟨x, b, rfl, (Laws.inSpace_iff _).1 hx, by cases h; rfl⟩)))
    · cases h
  | readMem x =>
    simp only [hostAct, hostReadMem] at h
    split at h
    · next hx => exact .inr (.inr (.inr (.inr ⟨x, rfl, (Laws.inSpace_iff _).1 hx, by cases h; rfl⟩)))
    · cases h
  | issue c =>
    have h8 : c.toNat < 8 := c.isLt
    have e : hostAct (.issue c) s = exec (decodeCommand c) s := by
      simp [hostAct, hostWriteReg, Reg.hostWrites, Reg.fits, h8, issue]
    exact .inr (.inl ⟨c, .inl rfl, e ▸ h⟩)

/-- A host that issues a code runs the command of that code. -/
theorem hostAct_issue (c : BitVec 3) (s : State) : hostAct (.issue c) s = exec (decodeCommand c) s := by
  have h8 : c.toNat < 8 := c.isLt
  simp [hostAct, hostWriteReg, Reg.hostWrites, Reg.fits, h8, issue]

/-! ## The cipher -/

/-- The cipher neither adds nor removes bytes (R156). -/
@[simp] theorem length_cipherLoop (b : Bool) (r : Word) (bs : List Byte) : (cipherLoop b r bs).1.length = bs.length := by
  induction bs generalizing b r with
  | nil => simp [cipherLoop]
  | cons x bs ih => cases b <;> simp [cipherLoop, ih]

end Sys2Proof.Machine
end

