-- ==== Sys2Proof/Certificates/Slice0/Obligations.lean ====
section
/-! DEFINITION. The statements for the provers. Each docstring names the rule of spec/ it formalises. A register operand
is read as a command takes it (`lenOp`, `keyOp`, ...): the register's value, or U5's drawn value while it is
`unspecified` (log 5). -/

open Sys2Proof Sys2Proof.Machine

/-! ## PARSE and the header format -/

/-- R121: an input of fewer than 4 bytes is rejected with cause 1, and no byte of MEM has a say in it. -/
def Obligations.ParseTooShort : Prop :=
  ∀ s : State, s.InputInRange → s.lenOp < 4 →
    ∃ t, exec .parse s = .next t ∧ RejectedTo s t 1#3 ∧
      ∀ m, exec .parse (s.setMem m) = .next (t.setMem m)

/-- R122: a wrong magic is rejected with cause 2, whatever the rest. -/
def Obligations.ParseBadMagic : Prop :=
  ∀ s : State, s.InputInRange → 4 ≤ s.lenOp → (s.inByte 0 ≠ 0x02#8 ∨ s.inByte 1 ≠ 0x13#8) →
    ∃ t, exec .parse s = .next t ∧ RejectedTo s t 2#3

/-- R123: a wrong version behind the right magic is rejected with cause 3. -/
def Obligations.ParseBadVersion : Prop :=
  ∀ s : State, s.InputInRange → 4 ≤ s.lenOp → s.inByte 0 = 0x02#8 → s.inByte 1 = 0x13#8 →
    s.inByte 2 ≠ 0x01#8 → ∃ t, exec .parse s = .next t ∧ RejectedTo s t 3#3

/-- R125: with the compressed bit set and fewer than 20 bytes the header is rejected with cause 4. -/
def Obligations.ParseDictTruncated : Prop :=
  ∀ s : State, s.InputInRange → 4 ≤ s.lenOp → s.inByte 0 = 0x02#8 → s.inByte 1 = 0x13#8 → s.inByte 2 = 0x01#8 →
    (s.inByte 3).getLsbD 7 = true → s.lenOp < 20 →
    ∃ t, exec .parse s = .next t ∧ RejectedTo s t 4#3

/-- R126: with the checksummed bit set and fewer than 2 bytes behind the flags byte or the dictionary the header is
rejected with cause 5. -/
def Obligations.ParseCksumTruncated : Prop :=
  ∀ s : State, s.InputInRange → 4 ≤ s.lenOp → s.inByte 0 = 0x02#8 → s.inByte 1 = 0x13#8 → s.inByte 2 = 0x01#8 →
    (s.inByte 3).getLsbD 5 = true →
    4 + 16 * ((s.inByte 3).getLsbD 7).toNat ≤ s.lenOp → s.lenOp < 6 + 16 * ((s.inByte 3).getLsbD 7).toNat →
    ∃ t, exec .parse s = .next t ∧ RejectedTo s t 5#3

/-- R127, R128: a header that passes all checks is accepted; the record takes the flags, the dictionary and the
checksum value, and HLEN is the number of header bytes; a field that is absent becomes `unspecified`. -/
def Obligations.ParseAccepts : Prop :=
  ∀ (s : State) (c k : Bool) (off : Nat), s.InputInRange → 4 ≤ s.lenOp →
    s.inByte 0 = 0x02#8 → s.inByte 1 = 0x13#8 → s.inByte 2 = 0x01#8 →
    c = (s.inByte 3).getLsbD 7 → k = (s.inByte 3).getLsbD 5 → off = 4 + 16 * c.toNat + 2 * k.toNat →
    off ≤ s.lenOp →
    ∃ t, exec .parse s = .next t ∧ t.valid = true ∧ t.rej = 0#3 ∧
      t.content .comp = (c.toNat, true) ∧ t.content .enc = (((s.inByte 3).getLsbD 6).toNat, true) ∧
      t.content .csum = (k.toNat, true) ∧ t.content .hlen = (off, true) ∧
      (c = true → ∀ i : BitVec 4, t.content (.dict i) = ((s.inByte (4 + i.toNat)).toNat, true)) ∧
      (c = false → ∀ i, t.isUnspecified (.dict i)) ∧
      (k = true → t.content .ckval =
        ((s.inByte (off - 2)).toNat * 256 + (s.inByte (off - 1)).toNat, true)) ∧
      (k = false → t.isUnspecified .ckval) ∧
      Frame s t recordRegs noBytes ∧ Quiet s t

/-- R34, R210: PARSE always ends, with `VALID = 1` and `REJ = 0` or with `VALID = 0` and REJ in 1 to 5. -/
def Obligations.ParseVerdict : Prop :=
  ∀ s : State, s.InputInRange → ∃ t, exec .parse s = .next t ∧
    ((t.valid = true ∧ t.rej = 0#3) ∨ (t.valid = false ∧ 1 ≤ t.rej.toNat ∧ t.rej.toNat ≤ 5))

/-- R69, R131: PARSE depends on no byte of MEM but `in[i]` for `i < min(LEN, 22)`. -/
def Obligations.ParseReadsOnlyHeader : Prop :=
  ∀ (s : State) (m : Memory), s.InputInRange →
    (∀ i, i < min s.lenOp 22 → (s.setMem m).inByte i = s.inByte i) →
    ∃ r : Record, exec .parse s = .next (s.setRecord r) ∧ exec .parse (s.setMem m) = .next ((s.setMem m).setRecord r)

/-- R29, R254: nothing of the record before a PARSE survives it or has a say in it. -/
def Obligations.ParseOverwritesRecord : Prop :=
  ∀ (s : State) (r : Record), exec .parse (s.setRecord r) = exec .parse s

/-- R127 for the header format itself: a header is accepted with the fields it has. That the row HEADER means this is
the model's reading (log 11). -/
def Obligations.HeaderAccepted : Prop :=
  ∀ (h : Header) (s : State), ∃ t, exec (.header h) s = .next t ∧ t.valid = true ∧ t.rej = 0#3 ∧
    t.content .comp = (h.dict.isSome.toNat, true) ∧ t.content .enc = (h.enc.toNat, true) ∧
    t.content .csum = (h.cksum.isSome.toNat, true) ∧ t.content .hlen = ((encode (.header h)).length, true) ∧
    (∀ d, h.dict = some d → ∀ i : BitVec 4, t.content (.dict i) = ((d[i.toNat]'i.isLt).toNat, true)) ∧
    (h.dict = none → ∀ i, t.isUnspecified (.dict i)) ∧
    (∀ k, h.cksum = some k → t.content .ckval = (k.toNat, true)) ∧
    (h.cksum = none → t.isUnspecified .ckval) ∧
    Frame s t recordRegs noBytes ∧ Quiet s t

/-! ## CKSUM and the validator -/

/-- R140, R141: SUM becomes the sum of the input bytes modulo 65536; nothing else changes (CKMATCH is a function of
SUM). -/
def Obligations.CksumResult : Prop :=
  ∀ s : State, s.InputInRange → ∃ t, exec .cksum s = .next t ∧
    t.content .sum = (((List.range s.lenOp).map fun i => (s.inByte i).toNat).sum % 65536, true) ∧
    Frame s t [.sum, .ckmatch] noBytes ∧ Quiet s t

/-- R142. -/
def Obligations.ChecksumAdditive : Prop :=
  ∀ A B : List Byte, sum16 (A ++ B) = sum16 A + sum16 B

/-- R140: the checksum is the sum of the bytes as unsigned numbers modulo 65536, that of no bytes is 0, and it depends
on the multiset of the bytes only. -/
def Obligations.ChecksumIsByteSum : Prop :=
  (∀ bs : List Byte, (sum16 bs).toNat = (bs.map BitVec.toNat).sum % 65536) ∧ sum16 [] = 0#16 ∧
    ∀ A B : List Byte, A.Perm B → sum16 A = sum16 B

/-- R35: the host reads CKMATCH as 1 if SUM and CKVAL are the same number, else as 0, if both hold a value; otherwise
CKMATCH is `unspecified`. -/
def Obligations.CkmatchCompares : Prop :=
  ∀ s : State, (s.sum.known = true → s.ckval.known = true →
    ∃ t, hostStep (.readReg .ckmatch) s = .next t ∧
      t.answers = (if s.sum.val = s.ckval.val then 1 else 0) :: s.answers) ∧
    (s.sum.known = false ∨ s.ckval.known = false → s.isUnspecified .ckmatch)

/-! ## STEP and DECRYPT -/

/-- R150: `lfsr_step` bit by bit. -/
def Obligations.LfsrStepBits : Prop :=
  ∀ s : Word, (∀ i, i < 15 → (lfsrStep s).getLsbD i = s.getLsbD (i + 1)) ∧
    (lfsrStep s).getLsbD 15 = (((s.getLsbD 0 ^^ s.getLsbD 11) ^^ s.getLsbD 13) ^^ s.getLsbD 14)

/-- R151: 0 is the only fixed point, the transition is a bijection, and from any nonzero seed 65535 steps visit each
nonzero value exactly once and come back; from `0x1337` the first state is `0x899B`. -/
def Obligations.LfsrMaximalPeriod : Prop :=
  (∀ s : Word, lfsrStep s = s ↔ s = 0#16) ∧ Function.Bijective lfsrStep ∧
    (∀ s : Word, s ≠ 0#16 → lfsrStep^[65535] s = s ∧ ∀ v : Word, v ≠ 0#16 → ∃! k, k < 65535 ∧ lfsrStep^[k] s = v) ∧
    lfsrStep 0x1337#16 = 0x899B#16

/-- R160: each state has one predecessor, and it is the one given, bit by bit; two keystream bytes at an even index are
a whole state, from which the key is computed backwards. -/
def Obligations.LfsrInverse : Prop :=
  (∀ s t : Word, lfsrStep s = t ↔ lfsrUnstep t = s) ∧
    (∀ t : Word, (∀ i, 1 ≤ i → i < 16 → (lfsrUnstep t).getLsbD i = t.getLsbD (i - 1)) ∧
      (lfsrUnstep t).getLsbD 0 = (((t.getLsbD 15 ^^ t.getLsbD 10) ^^ t.getLsbD 12) ^^ t.getLsbD 13)) ∧
    ∀ (K : Word) (j : Nat), lfsrUnstep^[j + 1] (wordOf (ks K (2 * j + 1)) (ks K (2 * j))) = K

/-- R152: STEP replaces LFSR by `lfsr_step(LFSR)`, in every state, and changes nothing else; the rule's corner cases
and its example. Where LFSR is `unspecified` the value it steps from is drawn, the model's choice of U5's two
(log 5). -/
def Obligations.StepResult : Prop :=
  (∀ s : State, ∃ t, exec .step s = .next t ∧ t.content .lfsr = ((lfsrStep s.lfsrOp).toNat, true) ∧
    Frame s t [.lfsr] noBytes ∧ Quiet s t) ∧
    lfsrStep 0x0000#16 = 0x0000#16 ∧ lfsrStep 0x0001#16 = 0x8000#16 ∧ lfsrStep 0xFFFF#16 = 0x7FFF#16 ∧
    lfsrStep 0x1337#16 = 0x899B#16

/-- R156, R157: with `n = min(LEN, CAP)`, RLEN is `n`, output byte `i` is `in[i] ^ ks(KEY, i)`, LFSR is KEY stepped
`1 + floor(n/2)` times, and nothing else changes. Operands that are `unspecified` are drawn, the model's choice of U5's
two (log 5). -/
def Obligations.DecryptResult : Prop :=
  ∀ s : State, s.Launchable → ∃ t, exec .decrypt s = .next t ∧
    t.content .rlen = (min s.lenOp s.capOp, true) ∧
    t.content .lfsr = ((lfsrStep^[1 + min s.lenOp s.capOp / 2] s.keyOp).toNat, true) ∧
    (∀ i, i < min s.lenOp s.capOp →
      Memory.read t.mem (s.dstOp + i) = some (s.inByte i ^^^ ks s.keyOp i)) ∧
    Frame s t [.lfsr, .rlen] (bytesAt s.dstOp (min s.lenOp s.capOp)) ∧ Quiet s t

/-- R158: DECRYPT of the output of a DECRYPT under the same key gives the input again. -/
def Obligations.DecryptSelfInverse : Prop :=
  ∀ s t s' : State, s.Launchable → s'.Launchable → s.lenOp ≤ s.capOp → exec .decrypt s = .next t →
    s'.keyOp = s.keyOp → s'.lenOp = s.lenOp → s'.lenOp ≤ s'.capOp →
    (∀ i, i < s.lenOp → s'.inByte i = t.byteAt (s.dstOp + i)) →
    ∃ t', exec .decrypt s' = .next t' ∧ t'.content .rlen = (s.lenOp, true) ∧
      ∀ i, i < s.lenOp → Memory.read t'.mem (s'.dstOp + i) = some (s.inByte i)

/-- R159, R250: under the key 0 the data passes unchanged and LFSR ends at 0. -/
def Obligations.DecryptZeroKey : Prop :=
  ∀ s : State, s.Launchable → s.keyOp = 0#16 → ∃ t, exec .decrypt s = .next t ∧ t.content .lfsr = (0, true) ∧
    ∀ i, i < min s.lenOp s.capOp → Memory.read t.mem (s.dstOp + i) = some (s.inByte i)

/-! ## DECOMP and its tokens -/

/-- R171: LIT. -/
def Obligations.LitToken : Prop :=
  ∀ (s : State) (c : Cursors), s.cursors = some c → c.ic < s.lenOp → c.oc < s.capOp →
    s.inByte c.ic ≠ 0x07#8 →
    (∃ rest, decodeToken (s.tokenBytes c.ic) = some (.lit (s.inByte c.ic), rest)) ∧
    ∃ t, exec (.lit (s.inByte c.ic)) s = .next t ∧ t.cursors = some ⟨c.ic + 1, c.oc + 1⟩ ∧
      Memory.read t.mem (s.dstOp + c.oc) = some (s.inByte c.ic) ∧
      Frame s t [] (bytesAt (s.dstOp + c.oc) 1) ∧ SamePort s t

/-- R172: ESCLIT. -/
def Obligations.EsclitToken : Prop :=
  ∀ (s : State) (c : Cursors), s.cursors = some c → c.ic + 1 < s.lenOp → c.oc < s.capOp →
    s.inByte c.ic = 0x07#8 → s.inByte (c.ic + 1) = 0x00#8 →
    (∃ rest, decodeToken (s.tokenBytes c.ic) = some (.esclit, rest)) ∧
    ∃ t, exec .esclit s = .next t ∧ t.cursors = some ⟨c.ic + 2, c.oc + 1⟩ ∧
      Memory.read t.mem (s.dstOp + c.oc) = some 0x07#8 ∧
      Frame s t [] (bytesAt (s.dstOp + c.oc) 1) ∧ SamePort s t

/-- R99, R173: RUN writes `DICT[B[3:0]]` `min(B[7:4], CAP - oc)` times. -/
def Obligations.RunToken : Prop :=
  ∀ (s : State) (c : Cursors) (count index : BitVec 4) (k : Nat), s.cursors = some c →
    c.ic + 1 < s.lenOp → c.oc < s.capOp → s.inByte c.ic = 0x07#8 →
    (s.inByte (c.ic + 1)).toNat = count.toNat * 16 + index.toNat → s.inByte (c.ic + 1) ≠ 0x00#8 →
    k = min count.toNat (s.capOp - c.oc) →
    (∃ rest, decodeToken (s.tokenBytes c.ic) = some (.run count index, rest)) ∧
    ∃ t, exec (.run count index) s = .next t ∧ t.cursors = some ⟨c.ic + 2, c.oc + k⟩ ∧
      (∀ j, j < k → Memory.read t.mem (s.dstOp + c.oc + j) = some (s.dictOp index)) ∧
      Frame s t [] (bytesAt (s.dstOp + c.oc) k) ∧ SamePort s t

/-- R174: ESCEOF. The step after it ends the command; that this is a step is the model's choice (log 8). -/
def Obligations.EsceofToken : Prop :=
  ∀ (s : State) (c : Cursors), s.cursors = some c → c.ic + 1 = s.lenOp → c.oc < s.capOp →
    s.inByte c.ic = 0x07#8 →
    (∃ rest, decodeToken (s.tokenBytes c.ic) = some (.esceof, rest)) ∧
    ∃ t, exec .esceof s = .next t ∧ t.cursors = some ⟨c.ic + 1, c.oc + 1⟩ ∧
      Memory.read t.mem (s.dstOp + c.oc) = some 0x07#8 ∧
      Frame s t [] (bytesAt (s.dstOp + c.oc) 1) ∧ SamePort s t ∧
      step t = .next ((t.setRlen (.put (c.oc + 1))).setCursors none)

/-- R176, R178: DECOMP writes the first CAP bytes of the full expansion of its input, or all of it if it fits, puts
their number into RLEN, and changes nothing else. Operands that are `unspecified`, DICT entries among them, are drawn,
the model's choice of U5's two (log 5). -/
def Obligations.DecompExpands : Prop :=
  ∀ s : State, s.Launchable → s.cursors = none → ∃ t, exec .decomp s = .next t ∧
    t.content .rlen = (min s.capOp (expand s.dictBytes s.input).length, true) ∧
    (∀ i, i < s.capOp → ∀ v, (expand s.dictBytes s.input)[i]? = some v →
      Memory.read t.mem (s.dstOp + i) = some v) ∧
    Frame s t [.rlen] (bytesAt s.dstOp (min s.capOp (expand s.dictBytes s.input).length)) ∧ Quiet s t

/-- R11, R175: the atomic command is its tokens run one by one from cursors 0: at most LEN of them, and one more turn
that writes RLEN. That cursors stand in State is the model's choice (log 8). -/
def Obligations.DecompRunsItsTokens : Prop :=
  ∀ s : State, s.Launchable → ∃ k t, k ≤ s.lenOp + 1 ∧ exec .decomp s = .next t ∧
    (Host.Core.run core k (s.setCursors (some ⟨0, 0⟩)) : Result) = .next t ∧ t.cursors = none

/-- R182: input without the byte `0x07` passes through unchanged if it fits. -/
def Obligations.DecompPassThrough : Prop :=
  ∀ s : State, s.Launchable → s.lenOp ≤ s.capOp → (∀ i, i < s.lenOp → s.inByte i ≠ 0x07#8) →
    ∃ t, exec .decomp s = .next t ∧ t.content .rlen = (s.lenOp, true) ∧
      (∀ i, i < s.lenOp → Memory.read t.mem (s.dstOp + i) = some (s.inByte i)) ∧
      ∀ i v, exec .decomp (s.setDict i v) = .next (t.setDict i v)

/-- R181: the expansion is at most `floor(15 * length / 2)` bytes, and streams of RUN tokens of count 15 reach it. -/
def Obligations.ExpansionBound : Prop :=
  (∀ (D : BitVec 4 → Byte) (s : List Byte), (expand D s).length ≤ 15 * s.length / 2) ∧
    ∀ (D : BitVec 4 → Byte) (ns : List (BitVec 4)),
      (expand D (ns.flatMap fun n => encode (.run 15#4 n))).length =
        15 * (ns.flatMap fun n => encode (.run 15#4 n)).length / 2

/-! ## All commands -/

/-- R102: the three reserved codes are refused, in every state; they are not no-ops. The refusal's name is the model's
(log 19). -/
def Obligations.ReservedRefused : Prop :=
  ∀ s : State, exec .reserved000 s = .refused (.reservedCommand 0#3) ∧
    exec .reserved110 s = .refused (.reservedCommand 6#3) ∧ exec .reserved111 s = .refused (.reservedCommand 7#3) ∧
    hostStep (.issue 0#3) s = .refused (.reservedCommand 0#3) ∧
    hostStep (.issue 6#3) s = .refused (.reservedCommand 6#3) ∧
    hostStep (.issue 7#3) s = .refused (.reservedCommand 7#3)

/-- R64, U6: a command one of whose regions passes the top of MEM is refused (the name is the model's, log 15, 19). -/
def Obligations.OutOfRangeRefused : Prop :=
  ∀ s : State,
    (¬ s.InputInRange → exec .parse s = .refused .regionsOutOfRange ∧ exec .cksum s = .refused .regionsOutOfRange) ∧
    (¬ (s.InputInRange ∧ s.OutputInRange) →
      exec .decrypt s = .refused .regionsOutOfRange ∧ exec .decomp s = .refused .regionsOutOfRange)

/-- R65, U7: DECRYPT and DECOMP on regions that share an address are refused, in place among them (the name is the
model's, log 19). -/
def Obligations.OverlapRefused : Prop :=
  ∀ (s : State) (i j : Nat), s.InputInRange → s.OutputInRange → i < s.lenOp → j < s.capOp →
    s.srcOp + i = s.dstOp + j →
    exec .decrypt s = .refused .regionsOverlap ∧ exec .decomp s = .refused .regionsOverlap

/-- R210, R246: no instruction faults; STEP is never refused, PARSE and CKSUM only for their input region, DECRYPT and
DECOMP only for their two regions. That none is refused for `OperandsWritten` is the model's choice of U5's two (log 5);
the refusals' names are the model's (log 15, 19). -/
def Obligations.CommandsNeverFault : Prop :=
  (∀ (i : Instr) (s : State) (f : Fault), exec i s ≠ .fault f) ∧
    (∀ (s : State) (r : Refusal), exec .step s ≠ .refused r) ∧
    (∀ i ∈ [Instr.parse, .cksum], ∀ (s : State) (r : Refusal), exec i s = .refused r →
      r = .regionsOutOfRange ∧ ¬ s.InputInRange) ∧
    ∀ i ∈ [Instr.decrypt, .decomp], ∀ (s : State) (r : Refusal), exec i s = .refused r →
      (r = .regionsOutOfRange ∧ ¬ (s.InputInRange ∧ s.OutputInRange)) ∨
      (r = .regionsOverlap ∧ s.InputInRange ∧ s.OutputInRange ∧ ¬ s.RegionsDisjoint)

/-- U5: a command on operands that are `unspecified` is the command on operands that hold the drawn values: it goes on
from both states, to the same register contents and bytes wherever a value stands, or is refused from both. Drawing
is the model's choice of U5's two (log 5). -/
def Obligations.UnwrittenOperandsAreDrawn : Prop :=
  ∀ i ∈ commands, ∀ s : State, OperandsWritten i s.drawn ∧
    (∀ t, exec i s = .next t → ∃ t', exec i s.drawn = .next t' ∧ Frame t.drawn t'.drawn [] noBytes) ∧
    ∀ r, exec i s = .refused r → exec i s.drawn = .refused r

/-- R42, R242, R246: where a command's operands are written, the free values have no say in what it does: with any other
draw it leaves the same memory, the same registers `unspecified`, and the same value in every other register. -/
def Obligations.WrittenOperandsFixResult : Prop :=
  ∀ i ∈ commands, ∀ (s t : State) (d : Nat), OperandsWritten i s → exec i s = .next t →
    ∃ t', exec i (s.redrawn d) = .next t' ∧ t'.mem = t.mem ∧
      ∀ r, (t'.content r).2 = (t.content r).2 ∧ ((t.content r).2 = true → t'.content r = t.content r)

/-- R63: DECRYPT and DECOMP leave every byte of their input region as it was. -/
def Obligations.InputRegionNeverWritten : Prop :=
  ∀ i ∈ [Instr.decrypt, .decomp], ∀ s : State, s.Launchable → ∃ t, exec i s = .next t ∧
    ∀ j, j < s.lenOp → Memory.read t.mem (s.srcOp + j) = Memory.read s.mem (s.srcOp + j)

/-- R36: no payload command depends on VALID, REJ, COMP, ENC, CSUM, HLEN or CKVAL; the same record with the same DICT
stands after it. -/
def Obligations.PayloadCommandsIgnoreStatus : Prop :=
  ∀ i ∈ [Instr.cksum, .step, .decrypt, .decomp], ∀ (s t : State) (r : Record), r.dict = s.dict →
    exec i s = .next t → exec i (s.setRecord r) = .next (t.setRecord r)

/-! ## Encodings -/

/-- R91, R96, R97, R98: decoding the bytes of a well-formed instruction, with anything behind them, gives it back and
leaves what was behind. Behind ESCEOF stands nothing. -/
def Obligations.DecodeEncodeAgree : Prop :=
  ∀ (i : Instr) (rest : List Byte), i.wf = true → (i = .esceof → rest = []) →
    decode i.space (encode i ++ rest) = .ok (i, rest)

/-- R91, R96, R98: what is decoded is well-formed, of the encoding asked for, and its bytes are those read. -/
def Obligations.EncodeDecodeAgree : Prop :=
  ∀ (sp : Space) (bs : List Byte) (i : Instr) (rest : List Byte), decode sp bs = .ok (i, rest) →
    i.wf = true ∧ i.space = sp ∧ encode i ++ rest = bs ∧ (i = .esceof → rest = [])

/-- R100: every byte sequence is a legal stream of exactly one token sequence. -/
def Obligations.StreamHasOneTokenization : Prop :=
  ∀ bs : List Byte, ∃! ts : List Token, (∀ t ∈ ts, t.toInstr.wf = true) ∧ (∀ t ∈ ts.dropLast, t ≠ .esceof) ∧
    ts.flatMap (fun t => encode t.toInstr) = bs

/-- R96, R97, R91: some words written out from the encoding tables. -/
def Obligations.SpecWordsDecode : Prop :=
  decodeCommand 0b001#3 = .parse ∧ decodeCommand 0b010#3 = .cksum ∧ decodeCommand 0b011#3 = .step ∧
    decodeCommand 0b100#3 = .decrypt ∧ decodeCommand 0b101#3 = .decomp ∧
    decode .stream [0x41#8, 0x07#8] = .ok (.lit 0x41#8, [0x07#8]) ∧
    decode .stream [0x07#8, 0x00#8] = .ok (.esclit, []) ∧
    decode .stream [0x07#8, 0xF2#8] = .ok (.run 15#4 2#4, []) ∧
    decode .stream [0x07#8] = .ok (.esceof, []) ∧
    decode .header [0x02#8, 0x13#8, 0x01#8, 0x20#8, 0xAB#8, 0xCD#8] =
      .ok (.header ⟨false, 0#5, none, some 0xABCD#16⟩, [])

/-! ## Steps, host actions, reset -/

/-- R13, R190: between two commands a step is the host's next action, of whichever of the five kinds. What the step adds
is the model's (log 2): the action is taken off the list. -/
def Obligations.StepRunsHostAction : Prop :=
  ∀ (s : State) (a : HostAction) (rest : List Event), s.cursors = none → s.pending = .act a :: rest →
    step s = hostStep a (s.setPending rest)

/-- R28, R193: when the host's next action is to issue a code, a step runs the instruction the code decodes to. What
the step adds is the model's (log 2, 4): the action is taken off the list, and the free values have a new draw. -/
def Obligations.StepRunsIssuedCommand : Prop :=
  ∀ (s : State) (c : BitVec 3) (rest : List Event), s.cursors = none → s.pending = .act (.issue c) :: rest →
    step s = exec (decodeCommand c) (s.setPending rest).nextDraw

/-- R28, R190: `HostWriteReg(CMD, v)` is the issue of the command of code `v`, for each of the eight codes, and
`Issue(c)` is that write. The new draw of the free values is the model's (log 4). -/
def Obligations.CmdWriteIssues : Prop :=
  ∀ (s : State) (c : BitVec 3), hostStep (.writeReg .cmd c.toNat) s = exec (decodeCommand c) s.nextDraw ∧
    hostStep (.issue c) s = hostStep (.writeReg .cmd c.toNat) s

/-- R98, R175: inside a DECOMP with input and output left, a step runs the token that the bytes at the input cursor
decode to, and adds nothing. That a step is one token there is the model's choice (log 8). -/
def Obligations.StepRunsToken : Prop :=
  ∀ (s : State) (c : Cursors) (tok : Token) (rest : List Byte), s.cursors = some c → c.ic < s.lenOp →
    c.oc < s.capOp → decodeToken (s.tokenBytes c.ic) = some (tok, rest) →
    step s = exec tok.toInstr s ∧ tok.toInstr.wf = true

/-- R40, R175, R177: inside a DECOMP whose input is exhausted or whose output is full, a step ends the command: RLEN
takes the output cursor and the cursors are gone. -/
def Obligations.StepEndsStream : Prop :=
  ∀ (s : State) (c : Cursors), s.cursors = some c → (s.lenOp ≤ c.ic ∨ s.capOp ≤ c.oc) →
    ∃ t, step s = .next t ∧ t.content .rlen = (c.oc, true) ∧ t.cursors = none ∧ Frame s t [.rlen] noBytes ∧
      SamePort s t

/-- R190: the core takes no step of its own. That a step then leaves the state as it is, is the model's choice
(log 2). -/
def Obligations.CoreWaitsForHost : Prop :=
  ∀ s : State, s.cursors = none → s.pending = [] → step s = .next s

/-- R190, R191: a host write of a value that fits replaces the whole register and nothing else. -/
def Obligations.HostWriteRegister : Prop :=
  ∀ (s : State) (r : Reg) (v : Nat), r.hostWrites = true → r ≠ .cmd → v < 2 ^ r.width →
    ∃ t, hostStep (.writeReg r v) s = .next t ∧ t.content r = (v, true) ∧ Frame s t [r] noBytes ∧
      t.cursors = s.cursors ∧ t.pending = s.pending ∧ t.answers = s.answers ∧ t.draws = s.draws + 1

/-- R190, R191: a host read of any register but CMD answers its value, if it holds one, and changes nothing; the
answer always fits the register's width. What an `unspecified` register answers is a free value (log 4). -/
def Obligations.HostReadRegister : Prop :=
  ∀ (s : State) (r : Reg), r ≠ .cmd → ∃ t v, hostStep (.readReg r) s = .next t ∧ t.answers = v :: s.answers ∧
    ((s.content r).2 = true → v = (s.content r).1) ∧ (s.Inv → v < 2 ^ r.width) ∧ Frame s t [] noBytes ∧
    t.cursors = s.cursors ∧ t.pending = s.pending ∧ t.draws = s.draws + 1

/-- R60, R192: a byte the host writes at an address of MEM is what it then reads there, and no other byte and no
register changes; in every state a read of an address of MEM answers a byte, the one that stands there if one has been written,
and changes nothing. What an unwritten cell answers is a free byte (log 6). -/
def Obligations.HostMemoryAccess : Prop :=
  (∀ (s : State) (a : Nat) (b : Byte), a < Config.space →
    ∃ t u, hostStep (.writeMem a b) s = .next t ∧ hostStep (.readMem a) t = .next u ∧
      u.answers = b.toNat :: s.answers ∧ Memory.read t.mem a = some b ∧ Frame s t [] (bytesAt a 1) ∧
      Frame t u [] noBytes ∧ u.cursors = s.cursors ∧ u.pending = s.pending) ∧
    ∀ (s : State) (a : Nat), a < Config.space → ∃ u v, hostStep (.readMem a) s = .next u ∧
      u.answers = v :: s.answers ∧ v < 256 ∧ (∀ b : Byte, Memory.read s.mem a = some b → v = b.toNat) ∧
      Frame s u [] noBytes ∧ u.cursors = s.cursors ∧ u.pending = s.pending

/-- R38, R190, R191: an action the spec does not define is never performed. -/
def Obligations.UndefinedActionsNotPerformed : Prop :=
  ∀ (a : HostAction) (s t : State), a.wf = false → hostStep a s ≠ .next t

/-- R44: the reset state. -/
def Obligations.ResetState : Prop :=
  State.reset.content .valid = (0, true) ∧ State.reset.content .rej = (0, true) ∧
    (∀ r, r ≠ .valid → r ≠ .rej → State.reset.isUnspecified r) ∧ (∀ a, Memory.read State.reset.mem a = none) ∧
    State.reset.cursors = none

/-- R240: a reset between commands puts every register and MEM into the reset state. What the host still asks for and
has been told stands (the model's choice, log 14), and the registers' values behind `unspecified` are those of log 3. -/
def Obligations.ResetEvent : Prop :=
  ∀ (s : State) (rest : List Event), s.cursors = none → s.pending = .reset :: rest →
    ∃ t, step s = .next t ∧ (∀ r, t.content r = State.reset.content r) ∧ t.mem = State.reset.mem ∧
      t.cursors = none ∧ t.pending = rest ∧ t.answers = s.answers

/-- The invariant holds at reset (R44; the values behind `unspecified` are the model's, log 3). -/
def Obligations.ResetMeetsInvariant : Prop := State.reset.Inv

/-- R20, R27, R29 to R34, R40, R60, R64, R65: every step keeps the invariant: MEM canonical and inside its addresses,
sizes inside their width, REJ legal and in agreement with VALID, HLEN, CKVAL and DICT in agreement with the flags, the
cursors inside their regions. -/
def Obligations.StepKeepsInvariant : Prop :=
  ∀ s t : State, s.Inv → step s = .next t → t.Inv

/-- R11, R40: cursors exist only while a command executes: from a state between two commands a step leads to a state
between two commands. That cursors stand in State is the model's choice (log 8). -/
def Obligations.CommandsAreAtomic : Prop :=
  ∀ s t : State, s.cursors = none → step s = .next t → t.cursors = none

/-! ## The host sequences -/

/-- R196: KEYGEN puts the checksum of the password into KEY and SUM. -/
def Obligations.KeygenResult : Prop :=
  ∀ (s : State) (P : Nat) (pw : List Byte), P < Config.space → pw.length < Config.space →
    P + pw.length ≤ Config.space → s.Holds P pw →
    ∃ t, keygen P pw.length s = .next t ∧
      t.content .key = ((pw.map BitVec.toNat).sum % 65536, true) ∧
      t.content .sum = ((pw.map BitVec.toNat).sum % 65536, true) ∧
      t.content .src = (P, true) ∧ t.content .len = (pw.length, true) ∧
      Frame s t [.key, .sum, .src, .len, .ckmatch] noBytes ∧ t.cursors = s.cursors ∧ t.pending = s.pending

/-- R194, R198: UNPACK of a container whose header is rejected stops with the cause and transforms nothing. -/
def Obligations.UnpackHeaderError : Prop :=
  ∀ (s : State) (A P PN W O OC : Nat) (cont : List Byte) (cause : HeaderReject), A < Config.space →
    cont.length < Config.space → A + cont.length ≤ Config.space → s.Holds A cont →
    decodeHeader cont = .error cause →
    ∃ t, unpack A cont.length P PN W O OC s = .next (.headerError cause.code.toNat, t) ∧
      Frame s t (.src :: .len :: recordRegs) noBytes

/-- R194, R198: UNPACK of a container whose payload does not have the header's checksum stops with INTEGRITY_ERROR
before it decrypts or decompresses. The container may end at the last address of MEM, but not with an empty payload,
whose address `2^AW` fits no SRC (log 17). -/
def Obligations.UnpackIntegrityError : Prop :=
  ∀ (s : State) (A P PN W O OC : Nat) (cont payload : List Byte) (h : Header) (k : Word), A < Config.space →
    cont.length < Config.space → A + cont.length ≤ Config.space → (payload = [] → A + cont.length < Config.space) →
    s.Holds A cont →
    decodeHeader cont = .ok (h, payload) → h.cksum = some k → sum16 payload ≠ k →
    ∃ t, unpack A cont.length P PN W O OC s = .next (.integrityError, t) ∧
      Frame s t (.src :: .len :: .sum :: recordRegs) noBytes

/-- R194, R195: UNPACK of a container whose header is accepted and whose checksum, if it has one, agrees ends with the
payload decrypted if the header says encrypted, then expanded if it says compressed, cut to the output capacity. The
regions a stage uses are inside MEM, may end at its last address, and share no address with the stage's input, and every
length and address that is written to a register fits it (log 17). -/
def Obligations.UnpackDecodes : Prop :=
  ∀ (s : State) (A P W O OC : Nat) (cont pw payload plain data : List Byte) (h : Header),
    s.cursors = none → A < Config.space → cont.length < Config.space → A + cont.length ≤ Config.space →
    s.Holds A cont → decodeHeader cont = .ok (h, payload) → (∀ k, h.cksum = some k → sum16 payload = k) →
    (payload = [] → (h.csum || h.enc || h.comp) = true → A + cont.length < Config.space) →
    (h.enc = true → P < Config.space ∧ pw.length < Config.space ∧ P + pw.length ≤ Config.space ∧ s.Holds P pw ∧
      W < Config.space ∧ W + payload.length ≤ Config.space ∧ (W + payload.length ≤ A ∨ A + cont.length ≤ W)) →
    (h.comp = true → O < Config.space ∧ OC < Config.space ∧ O + OC ≤ Config.space ∧
      (O + OC ≤ A ∨ A + cont.length ≤ O) ∧ (h.enc = true → O + OC ≤ W ∨ W + payload.length ≤ O)) →
    plain = (if h.enc then cipherBytes (sum16 pw) payload else payload) →
    data = (match h.dict with
      | some d => (expand (fun i => d[i.toNat]'i.isLt) plain).take OC
      | none => plain) →
    ∃ a t, unpack A cont.length P pw.length W O OC s = .next (.data a data.length, t) ∧ t.Holds a data ∧
      a = (if h.comp then O else if h.enc then W else A + 4 + 2 * h.csum.toNat)
end

