-- ==== Sys2Proof/Laws/PerInstr.lean ====
section
/-! SUPPORT. What holds of every instruction, one lemma per constructor. -/

namespace Sys2Proof.Laws.EncodedLength

/-- The encoder gives as many bytes as the opcode table's length says (R91, R97). -/
def Statement (i : Instr) : Prop := (encode i).length = i.length

theorem parse : Statement .parse := rfl
theorem cksum : Statement .cksum := rfl
theorem step : Statement .step := rfl
theorem decrypt : Statement .decrypt := rfl
theorem decomp : Statement .decomp := rfl
theorem reserved000 : Statement .reserved000 := rfl
theorem reserved110 : Statement .reserved110 := rfl
theorem reserved111 : Statement .reserved111 := rfl
theorem lit (b : Byte) : Statement (.lit b) := rfl
theorem esclit : Statement .esclit := rfl
theorem run (count index : BitVec 4) : Statement (.run count index) := rfl
theorem esceof : Statement .esceof := rfl

theorem header (h : Header) : Statement (.header h) := by
  obtain ⟨_, _, d, k⟩ := h
  cases d <;> cases k <;>
    simp [Statement, encode, encodeHeader, encodeDict, encodeCksum, Instr.length, Header.comp, Header.csum]

end Sys2Proof.Laws.EncodedLength
end

