-- ==== Sys2Proof/Tests/Slice0.lean ====
section
/-! SUPPORT. Tests on the words and vectors of the spec, and one witness for every statement that has hypotheses. A
vector's name in a comment (H13, K13, X1, Z17, ...) is that of `spec/95_test_vectors.md`. -/

namespace Sys2Proof.Tests

open Sys2Proof.Machine

/-! ## Ill-formed terms are refused (R97, R190, R191) -/

theorem test_wf_lit_escape : (Instr.lit 0x07#8).wf = false := by decide
theorem test_wf_run_zero : (Instr.run 0#4 0#4).wf = false := by decide
theorem test_wf_run_count_zero : (Instr.run 0#4 7#4).wf = true := by decide
theorem test_wf_write_sum : (HostAction.writeReg .sum 0).wf = false := by decide
theorem test_wf_write_rej : (HostAction.writeReg .rej 0).wf = false := by decide
theorem test_wf_write_wide_key : (HostAction.writeReg .key 65536).wf = false := by decide
theorem test_wf_write_wide_dict : (HostAction.writeReg (.dict 3) 256).wf = false := by decide
theorem test_wf_write_wide_cmd : (HostAction.writeReg .cmd 8).wf = false := by decide
theorem test_wf_write_wide_src : (HostAction.writeReg .src Config.space).wf = false := by
  rw [Bool.eq_false_iff]
  intro h
  simp only [HostAction.wf, Bool.and_eq_true] at h
  exact Nat.lt_irrefl _ ((Laws.inSpace_iff _).1 h.1.2)
theorem test_wf_write_cmd_reserved :
    (HostAction.writeReg .cmd 0).wf = false ∧ (HostAction.writeReg .cmd 6).wf = false ∧
    (HostAction.writeReg .cmd 7).wf = false ∧ (HostAction.writeReg .cmd 5).wf = true := by decide
theorem test_wf_read_cmd : (HostAction.readReg .cmd).wf = false := by decide
theorem test_wf_issue_reserved :
    (HostAction.issue 0#3).wf = false ∧ (HostAction.issue 6#3).wf = false ∧ (HostAction.issue 7#3).wf = false := by
  decide
theorem test_wf_mem_beyond (b : Byte) :
    (HostAction.writeMem Config.space b).wf = false ∧ (HostAction.readMem Config.space).wf = false :=
  have h : Config.inSpace (Config.space + 1) = false :=
    Bool.eq_false_iff.2 fun h => Nat.lt_irrefl _ ((Laws.inSpace_iff _).1 h)
  ⟨h, h⟩

/-! ## Words written out from the encoding tables (R91, R94 to R97, R102) -/

theorem test_decode_commands :
    decodeCommand 0b000#3 = .reserved000 ∧ decodeCommand 0b001#3 = .parse ∧ decodeCommand 0b010#3 = .cksum ∧
    decodeCommand 0b011#3 = .step ∧ decodeCommand 0b100#3 = .decrypt ∧ decodeCommand 0b101#3 = .decomp ∧
    decodeCommand 0b110#3 = .reserved110 ∧ decodeCommand 0b111#3 = .reserved111 := by decide
theorem test_decode_command_too_wide : decode .command [0x08#8] = .error .codeTooWide := by decide
theorem test_decode_lit : decodeToken [0b11110010#8, 0x07#8] = some (.lit 0xF2#8, [0x07#8]) := by decide
theorem test_decode_esclit : decodeToken [0b00000111#8, 0b00000000#8, 0x07#8] = some (.esclit, [0x07#8]) := by decide
theorem test_decode_run : decodeToken [0b00000111#8, 0b11110010#8] = some (.run 0b1111#4 0b0010#4, []) := by decide
theorem test_decode_run_operand_escape : decodeToken [0x07#8, 0x07#8, 0x00#8] = some (.run 0#4 7#4, [0x00#8]) := by
  decide
theorem test_decode_esceof : decodeToken [0b00000111#8] = some (.esceof, []) := by decide
theorem test_decode_nothing : decode .stream [] = .error .noBytes := by decide
/-- H14: unused flag bits set, a byte behind the header. -/
theorem test_decode_header_cksum :
    decode .header [0x02#8, 0x13#8, 0x01#8, 0b00111111#8, 0x12#8, 0x34#8, 0x99#8] =
      .ok (.header ⟨false, 0b11111#5, none, some 0x1234#16⟩, [0x99#8]) := by decide
/-- H21: both fields. -/
theorem test_decode_header_full :
    decode .header ([0x02#8, 0x13#8, 0x01#8, 0b11111111#8] ++ (List.range 16).map (fun i => BitVec.ofNat 8 (0xA0 + i))
        ++ [0xFF#8, 0xFE#8, 0x55#8]) =
      .ok (.header ⟨true, 0b11111#5, some (table16 fun i => BitVec.ofNat 8 (0xA0 + i)), some 0xFFFE#16⟩, [0x55#8]) := by
  decide
/-- H4: the magic is big-endian. -/
theorem test_decode_header_magic : decode .header [0x13#8, 0x02#8, 0x01#8, 0#8] = .error (.header .badMagic) := by
  decide

theorem test_word_command : decodeTableWord 3 4 = some .decrypt ∧ decodeTableWord 8 0 = some .reserved000 := by decide
theorem test_word_tokens :
    decodeTableWord 8 0x07 = some .esceof ∧ decodeTableWord 8 0x41 = some (.lit 0x41#8) ∧
    decodeTableWord 16 0x0700 = some .esclit ∧ decodeTableWord 16 0x07F2 = some (.run 15#4 2#4) := by decide
theorem test_word_header :
    decodeTableWord 32 0x02130140 = some (.header ⟨true, 0#5, none, none⟩) ∧ decodeTableWord 32 0x02130240 = none := by
  decide

/-! ## One step of each instruction -/

/-- A state with bytes at 0, the input region over the first `len` of them, and an output region. -/
def bench (bs : List Byte) (len dst cap : Nat) : State :=
  { State.reset with
    mem := Memory.writeBytes [] 0 bs, src := .put 0, len := .put len, dst := .put dst, cap := .put cap }

/-- The dictionary DG of the vectors, `DICT[i] = 0xD0 + i`. -/
def State.withDG (s : State) : State := { s with dict := table16 fun i => .put (BitVec.ofNat 8 (0xD0 + i)) }

/-- `bench` between two commands, with a code about to be issued. -/
def issued (c : BitVec 3) (s : State) : State := s.setPending [.act (.issue c)]

/-- The state a result goes on to. -/
def after (r : Result) : State :=
  match r with
  | .next t => t
  | .fault _ => State.reset
  | .refused _ => State.reset

/-- The bytes written at `a`, `a + 1`, ..., as far as asked. -/
def cells (s : State) (a n : Nat) : List (Option Byte) := (List.range n).map fun i => Memory.read s.mem (a + i)

/-- H13. -/
theorem test_parse_accept :
    let t := after (step (issued 1#3 (bench [0x02#8, 0x13#8, 0x01#8, 0x20#8, 0xAB#8, 0xCD#8] 6 0 0)))
    t.valid = true ∧ t.csum = .put true ∧ t.ckval = .put 0xABCD#16 ∧ t.hlen = .put 6 := by decide
/-- H25: the dictionary check comes before the checksum check. -/
theorem test_parse_reject :
    let t := after (step (issued 1#3 (bench [0x02#8, 0x13#8, 0x01#8, 0xA0#8, 0xA0#8] 5 0 0)))
    t.valid = false ∧ t.rej = 4#3 ∧ t.comp.known = false := by decide
/-- K13. -/
theorem test_cksum :
    (after (step (issued 2#3 (bench [0x07#8, 0x70#8, 0xF2#8, 0x07#8, 0x52#8, 0xFE#8, 0x07#8, 0x8F#8] 8 0 0)))).sum =
      .put 0x0356#16 := by decide
/-- S13 and S9. -/
theorem test_step :
    (after (exec .step (State.reset.setLfsr (.put 0x1337#16)))).lfsr = .put 0x899B#16 ∧
    (after (exec .step (State.reset.setLfsr (.put 0x0801#16)))).lfsr = .put 0x0400#16 := by decide
/-- Q3: an LFSR that nothing has written steps from the drawn value, not from the 0 behind the mark (U5). -/
theorem test_step_unwritten :
    (after (exec .step State.reset)).lfsr = .put (lfsrStep (Config.freeWord 0 Reg.lfsr.number)) := rfl
/-- X1. -/
theorem test_decrypt :
    let t := after (step (issued 4#3
      ((bench [0x48#8, 0x65#8, 0x6C#8, 0x6C#8, 0x6F#8] 5 8 5).setKey (.put 0x1337#16))))
    cells t 8 6 = [some 0xD3#8, some 0xEC#8, some 0xA1#8, some 0x28#8, some 0x09#8, none] ∧
      t.rlen = .put 5 ∧ t.lfsr = .put 0x2266#16 := by decide
/-- X5: the capacity cuts the output after a full pair. -/
theorem test_decrypt_cut :
    let t := after (step (issued 4#3
      ((bench [0x48#8, 0x65#8, 0x6C#8, 0x6C#8, 0x6F#8] 5 8 2).setKey (.put 0x1337#16))))
    cells t 8 3 = [some 0xD3#8, some 0xEC#8, none] ∧ t.rlen = .put 2 ∧ t.lfsr = .put 0x44CD#16 := by decide
/-- Z17. -/
theorem test_decomp :
    let t := after (step (issued 5#3 (State.withDG (bench [0x41#8, 0x07#8, 0x32#8, 0x42#8] 4 8 9))))
    cells t 8 6 = [some 0x41#8, some 0xD2#8, some 0xD2#8, some 0xD2#8, some 0x42#8, none] ∧ t.rlen = .put 5 ∧
      t.cursors = none := by decide
/-- Z18: a run cut by the capacity. -/
theorem test_decomp_cut :
    let t := after (step (issued 5#3 (State.withDG (bench [0x41#8, 0x07#8, 0x32#8, 0x42#8] 4 8 2))))
    cells t 8 3 = [some 0x41#8, some 0xD2#8, none] ∧ t.rlen = .put 2 := by decide
/-- Q1. -/
theorem test_reserved_refused :
    (match step (issued 0#3 State.reset), step (issued 6#3 State.reset), step (issued 7#3 State.reset) with
      | .refused a, .refused b, .refused c => decide (a = .reservedCommand 0#3 ∧ b = .reservedCommand 6#3 ∧
          c = .reservedCommand 7#3)
      | _, _, _ => false) = true := by decide
/-- The tokens of Z20, Z3, Z12 and Z2, each as one turn of a DECOMP at cursors 0. -/
theorem test_lit :
    let t := after (step ((bench [0x41#8, 0x07#8] 2 8 5).setCursors (some ⟨0, 0⟩)))
    t.cursors = some ⟨1, 1⟩ ∧ cells t 8 2 = [some 0x41#8, none] := by decide
theorem test_esclit :
    let t := after (step ((bench [0x07#8, 0x00#8] 2 8 1).setCursors (some ⟨0, 0⟩)))
    t.cursors = some ⟨2, 1⟩ ∧ cells t 8 2 = [some 0x07#8, none] := by decide
theorem test_run :
    let t := after (step ((State.withDG (bench [0x07#8, 0xFF#8] 2 8 4)).setCursors (some ⟨0, 0⟩)))
    t.cursors = some ⟨2, 4⟩ ∧ cells t 8 5 = [some 0xDF#8, some 0xDF#8, some 0xDF#8, some 0xDF#8, none] := by decide
theorem test_esceof :
    let t := after (step ((bench [0x07#8] 1 8 1).setCursors (some ⟨0, 0⟩)))
    t.cursors = some ⟨1, 1⟩ ∧ cells t 8 2 = [some 0x07#8, none] := by decide
/-- H24 as a header. -/
theorem test_header :
    let t := after (exec (.header ⟨true, 0#5, none, some 0x0000#16⟩) State.reset)
    t.valid = true ∧ t.enc = .put true ∧ t.hlen = .put 6 ∧ t.ckval = .put 0#16 := by decide
/-- A table word runs as the first step after reset. -/
theorem test_fetch_word :
    (after (step (State.reset.withFetchWord 16 0x0700))).cursors = some ⟨2, 1⟩ ∧
    (after (step (State.reset.withFetchWord 32 0x02130140))).valid = true ∧
    (after (step (State.reset.withFetchWord 3 3))).lfsr = .put 0#16 := by decide

/-! ## Witnesses: states and operands that meet all hypotheses of a statement together -/

theorem inSpace_small {n : Nat} (h : n ≤ 32) : n ≤ Config.space := Nat.le_trans h Laws.space_ge

theorem launchable_small {s : State} (h : s.srcOp + s.lenOp ≤ 32 ∧ s.dstOp + s.capOp ≤ 32 ∧
    s.regionsDisjoint = true) : s.Launchable :=
  ⟨inSpace_small h.1, inSpace_small h.2.1, State.regionsDisjoint_iff.1 h.2.2⟩

/-- The four first bytes of an acceptable header, then zeros. -/
def head (flags : Byte) : List Byte := [0x02#8, 0x13#8, 0x01#8, flags] ++ List.replicate 18 0#8

theorem witness_ParseTooShort :
    (bench (head 0#8) 3 0 0).InputInRange ∧ (bench (head 0#8) 3 0 0).lenOp < 4 :=
  ⟨inSpace_small (by decide), by decide⟩

theorem witness_ParseBadMagic :
    (bench [0x13#8, 0x02#8, 1#8, 0#8] 4 0 0).InputInRange ∧ 4 ≤ (bench [0x13#8, 0x02#8, 1#8, 0#8] 4 0 0).lenOp ∧
    ((bench [0x13#8, 0x02#8, 1#8, 0#8] 4 0 0).inByte 0 ≠ 0x02#8 ∨
      (bench [0x13#8, 0x02#8, 1#8, 0#8] 4 0 0).inByte 1 ≠ 0x13#8) :=
  ⟨inSpace_small (by decide), by decide, by decide⟩

theorem witness_ParseBadVersion :
    let s := bench [0x02#8, 0x13#8, 2#8, 0xE0#8] 4 0 0
    s.InputInRange ∧ 4 ≤ s.lenOp ∧ s.inByte 0 = 0x02#8 ∧ s.inByte 1 = 0x13#8 ∧ s.inByte 2 ≠ 0x01#8 :=
  ⟨inSpace_small (by decide), by decide, by decide, by decide, by decide⟩

/-- H16: one byte short of the dictionary. -/
theorem witness_ParseDictTruncated :
    let s := bench (head 0x80#8) 19 0 0
    s.InputInRange ∧ 4 ≤ s.lenOp ∧ s.inByte 0 = 0x02#8 ∧ s.inByte 1 = 0x13#8 ∧ s.inByte 2 = 0x01#8 ∧
      (s.inByte 3).getLsbD 7 = true ∧ s.lenOp < 20 :=
  ⟨inSpace_small (by decide), by decide, by decide, by decide, by decide, by decide, by decide⟩

/-- H12 and H19: one byte short of the checksum, without and with a dictionary. -/
theorem witness_ParseCksumTruncated :
    ∀ p ∈ [(0x20#8, 5), (0xA0#8, 21)],
      let s := bench (head p.1) p.2 0 0
      s.InputInRange ∧ 4 ≤ s.lenOp ∧ s.inByte 0 = 0x02#8 ∧ s.inByte 1 = 0x13#8 ∧ s.inByte 2 = 0x01#8 ∧
        (s.inByte 3).getLsbD 5 = true ∧ 4 + 16 * ((s.inByte 3).getLsbD 7).toNat ≤ s.lenOp ∧
        s.lenOp < 6 + 16 * ((s.inByte 3).getLsbD 7).toNat := by
  intro p hp
  simp only [List.mem_cons, List.not_mem_nil, or_false] at hp
  rcases hp with rfl | rfl <;> exact ⟨inSpace_small (by decide), by decide⟩

/-- The four header shapes of R91, each with an empty payload (H3, H13, H17, H20). -/
theorem witness_ParseAccepts :
    ∀ p ∈ [(0x00#8, false, false, 4), (0x20#8, false, true, 6), (0x80#8, true, false, 20), (0xA0#8, true, true, 22)],
      let s := bench (head p.1) p.2.2.2 0 0
      s.InputInRange ∧ 4 ≤ s.lenOp ∧ s.inByte 0 = 0x02#8 ∧ s.inByte 1 = 0x13#8 ∧ s.inByte 2 = 0x01#8 ∧
        p.2.1 = (s.inByte 3).getLsbD 7 ∧ p.2.2.1 = (s.inByte 3).getLsbD 5 ∧
        p.2.2.2 = 4 + 16 * p.2.1.toNat + 2 * p.2.2.1.toNat ∧ p.2.2.2 ≤ s.lenOp := by
  intro p hp
  simp only [List.mem_cons, List.not_mem_nil, or_false] at hp
  rcases hp with rfl | rfl | rfl | rfl <;> exact ⟨inSpace_small (by decide), by decide⟩

theorem witness_ParseVerdict : (bench (head 0xE0#8) 22 0 0).InputInRange := inSpace_small (by decide)

/-- The bytes behind the longest header differ. -/
theorem witness_ParseReadsOnlyHeader :
    let s := bench (head 0xE0#8 ++ [1#8]) 23 0 0
    let m := Memory.write s.mem 22 2#8
    s.InputInRange ∧ m ≠ s.mem ∧ ∀ i, i < min s.lenOp 22 → (s.setMem m).inByte i = s.inByte i :=
  ⟨inSpace_small (by decide), by decide, by decide⟩

/-- The full memory of `AW = 5` as one region. -/
theorem witness_CksumResult : (bench (head 0xE0#8) 32 0 0).InputInRange := inSpace_small (by decide)

theorem witness_ChecksumIsByteSum : [0x61#8, 0x62#8, 0x63#8].Perm [0x63#8, 0x61#8, 0x62#8] := by decide

theorem witness_CkmatchCompares :
    (let s := { State.reset with sum := .put 5#16, ckval := .put 5#16 }; s.sum.known = true ∧ s.ckval.known = true) ∧
    (let s := { State.reset with sum := .put 5#16 }; s.sum.known = false ∨ s.ckval.known = false) := by decide

/-- "Hello" of X1 with the output region directly behind the input region. -/
def hello : State := (bench [0x48#8, 0x65#8, 0x6C#8, 0x6C#8, 0x6F#8] 5 5 5).setKey (.put 0x1337#16)

theorem hello_launchable : hello.Launchable := launchable_small (by decide)

/-- The seed of S13. -/
theorem witness_LfsrMaximalPeriod : (0x1337#16 : Word) ≠ 0#16 := by decide

theorem witness_DecryptResult : hello.Launchable ∧ (hello.setCap (.put 0)).Launchable :=
  ⟨hello_launchable, launchable_small (by decide)⟩

/-- X1 and X12: the output of one DECRYPT as the input of the next. -/
theorem witness_DecryptSelfInverse :
    let t := after (exec .decrypt hello)
    let s' := (t.setSrc (.put 5)).setDst (.put 10)
    hello.Launchable ∧ s'.Launchable ∧ hello.lenOp ≤ hello.capOp ∧ exec .decrypt hello = .next t ∧
      s'.keyOp = hello.keyOp ∧ s'.lenOp = hello.lenOp ∧ s'.lenOp ≤ s'.capOp ∧
      ∀ i, i < hello.lenOp → s'.inByte i = t.byteAt (hello.dstOp + i) := by
  have e : exec .decrypt hello = .next (after (exec .decrypt hello)) := by
    rw [show exec .decrypt hello = execDecrypt hello from rfl, execDecrypt_runs hello_launchable]; rfl
  exact ⟨hello_launchable, launchable_small (by decide), by decide, e, by decide, by decide, by decide, by decide⟩

theorem witness_DecryptZeroKey :
    (hello.setKey (.put 0#16)).Launchable ∧ (hello.setKey (.put 0#16)).keyOp = 0#16 :=
  ⟨launchable_small (by decide), rfl⟩

/-- The last input byte, and one byte of room. -/
theorem witness_LitToken :
    let s := (bench [0x41#8, 0x42#8] 2 8 5).setCursors (some ⟨1, 4⟩)
    s.cursors = some ⟨1, 4⟩ ∧ 1 < s.lenOp ∧ 4 < s.capOp ∧ s.inByte 1 ≠ 0x07#8 := by decide

theorem witness_EsclitToken :
    let s := (bench [0x41#8, 0x07#8, 0x00#8] 3 8 5).setCursors (some ⟨1, 4⟩)
    s.cursors = some ⟨1, 4⟩ ∧ 1 + 1 < s.lenOp ∧ 4 < s.capOp ∧ s.inByte 1 = 0x07#8 ∧ s.inByte (1 + 1) = 0x00#8 := by
  decide

/-- A run that is cut, and a run of no copies. -/
theorem witness_RunToken :
    (let s := (State.withDG (bench [0x07#8, 0xF2#8] 2 8 4)).setCursors (some ⟨0, 0⟩);
      s.cursors = some ⟨0, 0⟩ ∧ 0 + 1 < s.lenOp ∧ 0 < s.capOp ∧ s.inByte 0 = 0x07#8 ∧
        (s.inByte (0 + 1)).toNat = (15#4).toNat * 16 + (2#4).toNat ∧ s.inByte (0 + 1) ≠ 0x00#8 ∧
        4 = min (15#4).toNat (s.capOp - 0)) ∧
    (let s := (State.withDG (bench [0x07#8, 0x07#8] 2 8 4)).setCursors (some ⟨0, 3⟩);
      s.cursors = some ⟨0, 3⟩ ∧ 0 + 1 < s.lenOp ∧ 3 < s.capOp ∧ s.inByte 0 = 0x07#8 ∧
        (s.inByte (0 + 1)).toNat = (0#4).toNat * 16 + (7#4).toNat ∧ s.inByte (0 + 1) ≠ 0x00#8 ∧
        0 = min (0#4).toNat (s.capOp - 3)) := by decide

theorem witness_EsceofToken :
    let s := (bench [0x41#8, 0x07#8] 2 8 2).setCursors (some ⟨1, 1⟩)
    s.cursors = some ⟨1, 1⟩ ∧ 1 + 1 = s.lenOp ∧ 1 < s.capOp ∧ s.inByte 1 = 0x07#8 := by decide

/-- Z18, where the capacity ends the command, and an empty input region inside the output region. -/
theorem witness_DecompExpands :
    let s := State.withDG (bench [0x41#8, 0x07#8, 0x32#8, 0x42#8] 4 8 2)
    let z := (s.setLen (.put 0)).setDst (.put 0)
    s.Launchable ∧ s.cursors = none ∧ z.Launchable ∧ z.cursors = none :=
  ⟨launchable_small (by decide), rfl, launchable_small (by decide), rfl⟩

theorem witness_DecompRunsItsTokens : (State.withDG (bench [0x41#8, 0x07#8, 0x32#8, 0x42#8] 4 8 9)).Launchable :=
  launchable_small (by decide)

/-- Z14. -/
theorem witness_DecompPassThrough :
    let s := bench [0x41#8, 0x42#8, 0x43#8] 3 8 3
    s.Launchable ∧ s.lenOp ≤ s.capOp ∧ ∀ i, i < s.lenOp → s.inByte i ≠ 0x07#8 :=
  ⟨launchable_small (by decide), by decide, by decide⟩

/-- Q5, and an output region alone out of range. -/
theorem witness_OutOfRangeRefused :
    let s := (bench [] 1 0 0).setSrc (.put Config.space)
    let z := (bench [] 0 0 1).setDst (.put Config.space)
    ¬ s.InputInRange ∧ ¬ (s.InputInRange ∧ s.OutputInRange) ∧ z.InputInRange ∧ ¬ (z.InputInRange ∧ z.OutputInRange) :=
  ⟨fun h => Nat.not_succ_le_self _ h, fun h => Nat.not_succ_le_self _ h.1, inSpace_small (by decide),
    fun h => Nat.not_succ_le_self _ h.2⟩

/-- Q7 moved down: one shared address. -/
theorem witness_OverlapRefused :
    let s := bench [] 4 3 8
    s.InputInRange ∧ s.OutputInRange ∧ 3 < s.lenOp ∧ 0 < s.capOp ∧ s.srcOp + 3 = s.dstOp + 0 :=
  ⟨inSpace_small (by decide), inSpace_small (by decide), by decide, by decide, by decide⟩

/-- Each command is refused for each of its premises (Q5, Q7). -/
theorem witness_CommandsNeverFault :
    (∀ i ∈ [Instr.parse, .cksum],
      exec i ((bench [] 1 0 0).setSrc (.put Config.space)) = .refused .regionsOutOfRange) ∧
    ∀ i ∈ [Instr.decrypt, .decomp],
      exec i ((bench [] 1 0 0).setSrc (.put Config.space)) = .refused .regionsOutOfRange ∧
      exec i (bench [] 4 0 4) = .refused .regionsOverlap := by
  have far : ¬ ((bench [] 1 0 0).setSrc (.put Config.space)).InputInRange := fun h => Nat.not_succ_le_self _ h
  have input : (bench [] 4 0 4).InputInRange := inSpace_small (by decide)
  have shared : ¬ (bench [] 4 0 4).RegionsDisjoint := fun h => h 0 0 (by decide) (by decide) rfl
  constructor <;> intro i hi <;> simp only [List.mem_cons, List.not_mem_nil, or_false] at hi <;>
    rcases hi with rfl | rfl
  · exact execParse_outOfRange far
  · exact execCksum_outOfRange far
  · exact ⟨execDecrypt_outOfRange fun h => far h.1, execDecrypt_overlap input (inSpace_small (by decide)) shared⟩
  · exact ⟨execDecomp_outOfRange fun h => far h.1, execDecomp_overlap input (inSpace_small (by decide)) shared⟩

/-- STEP right after reset (Q3), and a PARSE without a written LEN that no draw puts inside MEM. -/
theorem witness_UnwrittenOperandsAreDrawn :
    (Instr.step ∈ commands ∧ exec .step State.reset = .next (after (exec .step State.reset))) ∧
    (Instr.parse ∈ commands ∧
      exec .parse (State.reset.setSrc (.put (Config.space + 1))) = .refused .regionsOutOfRange) :=
  ⟨⟨by decide, rfl⟩, by decide,
    execParse_outOfRange fun h => Nat.not_succ_le_self _ (Nat.le_trans (Nat.le_add_right _ _) h)⟩

/-- "Hello" with an LFSR for all five commands; and a DECOMP with the one entry it needs: its second RUN has count 0,
its third stands behind a full output. -/
theorem witness_WrittenOperandsFixResult :
    (∀ i ∈ commands, OperandsWritten i (hello.setLfsr (.put 1#16)) ∧
      exec i (hello.setLfsr (.put 1#16)) = .next (after (exec i (hello.setLfsr (.put 1#16))))) ∧
    (let s := (bench [0x07#8, 0x13#8, 0x07#8, 0x04#8, 0x42#8, 0x07#8, 0x15#8] 7 8 2).setDict 3 (.put 9#8);
      Instr.decomp ∈ commands ∧ OperandsWritten .decomp s ∧ s.isUnspecified (.dict 4) ∧
      exec .decomp s = .next (after (exec .decomp s))) := by
  refine ⟨fun i hi => ?_, by decide, by simp only [OperandsWritten, State.InputWritten]; decide, rfl, rfl⟩
  simp only [commands, List.mem_cons, List.not_mem_nil, or_false] at hi
  rcases hi with rfl | rfl | rfl | rfl | rfl <;>
    exact ⟨by simp only [OperandsWritten, State.InputWritten]; decide, rfl⟩

theorem witness_InputRegionNeverWritten : ∀ i ∈ [Instr.decrypt, .decomp], i.wf = true ∧ hello.Launchable :=
  fun i hi => ⟨by revert i; decide, hello_launchable⟩

theorem witness_PayloadCommandsIgnoreStatus :
    let r : Record := ⟨true, 0#3, .put true, .put true, .put true, .put 22, .put 7#16, hello.dict⟩
    r.dict = hello.dict ∧ exec .step hello = .next (hello.setLfsr (.put (lfsrStep hello.lfsrOp))) ∧
      exec .cksum hello = .next (hello.setSum (.put (sum16 (hello.inBytes 0 hello.lenOp)))) ∧
      exec .decrypt hello = .next (after (exec .decrypt hello)) := by
  refine ⟨rfl, rfl, execCksum_runs hello_launchable.input, ?_⟩
  rw [show exec .decrypt hello = execDecrypt hello from rfl, execDecrypt_runs hello_launchable]; rfl

theorem witness_DecodeEncodeAgree :
    ((Instr.run 0#4 7#4).wf = true ∧ (Instr.run 0#4 7#4 = .esceof → [0x07#8] = [])) ∧
    (Instr.esceof.wf = true ∧ (Instr.esceof = .esceof → ([] : List Byte) = [])) := by decide

theorem witness_EncodeDecodeAgree :
    decode .command [0x05#8, 0x07#8] = .ok (.decomp, [0x07#8]) ∧
    decode .stream [0x07#8, 0x07#8] = .ok (.run 0#4 7#4, []) ∧
    decode .header [0x02#8, 0x13#8, 0x01#8, 0x1F#8] = .ok (.header ⟨false, 0x1F#5, none, none⟩, []) := by decide

/-- One action of each kind. -/
theorem witness_StepRunsHostAction :
    ∀ a ∈ [HostAction.writeReg .key 7, .readReg .rej, .writeMem 0 1#8, .readMem 0, .issue 1#3],
      (hello.setPending [.act a]).cursors = none ∧ (hello.setPending [.act a]).pending = .act a :: [] :=
  fun _ _ => ⟨rfl, rfl⟩

theorem witness_StepRunsIssuedCommand :
    (issued 4#3 hello).cursors = none ∧ (issued 4#3 hello).pending = .act (.issue 4#3) :: [] := ⟨rfl, rfl⟩

theorem witness_StepRunsToken :
    let s := (bench [0x41#8, 0x07#8] 2 8 2).setCursors (some ⟨1, 1⟩)
    s.cursors = some ⟨1, 1⟩ ∧ 1 < s.lenOp ∧ 1 < s.capOp ∧
      decodeToken (s.tokenBytes 1) = some (Token.esceof, []) := by decide

/-- The input exhausted, and the output full. -/
theorem witness_StepEndsStream :
    (let s := (bench [0x41#8, 0x07#8] 2 8 5).setCursors (some ⟨2, 2⟩);
      s.cursors = some ⟨2, 2⟩ ∧ (s.lenOp ≤ 2 ∨ s.capOp ≤ 2)) ∧
    (let s := (bench [0x41#8, 0x07#8] 2 8 1).setCursors (some ⟨1, 1⟩);
      s.cursors = some ⟨1, 1⟩ ∧ (s.lenOp ≤ 1 ∨ s.capOp ≤ 1)) := by decide

theorem witness_CoreWaitsForHost : hello.cursors = none ∧ hello.pending = [] := ⟨rfl, rfl⟩

/-- The greatest value of a key, of an address and of an entry. -/
theorem witness_HostWriteRegister :
    (Reg.key.hostWrites = true ∧ Reg.key ≠ .cmd ∧ 65535 < 2 ^ Reg.key.width) ∧
    (Reg.src.hostWrites = true ∧ Reg.src ≠ .cmd ∧ Config.space - 1 < 2 ^ Reg.src.width) ∧
    ((Reg.dict 15).hostWrites = true ∧ Reg.dict 15 ≠ .cmd ∧ 255 < 2 ^ (Reg.dict 15).width) :=
  ⟨by decide, ⟨by decide, by decide, Nat.sub_one_lt (Nat.ne_of_gt (Nat.two_pow_pos _))⟩, by decide⟩

/-- The registers of a machine that has run: what PARSE leaves of the header of H13. -/
def parsed : State :=
  (bench [0x02#8, 0x13#8, 0x01#8, 0x20#8, 0xAB#8, 0xCD#8] 6 0 0).accept ⟨false, 0#5, none, some 0xABCD#16⟩

theorem parsed_inv (p : List Event) : (parsed.setPending p).Inv where
  memWf := show Memory.wf parsed.mem = true by decide
  memSpace := fun c hc => Nat.lt_of_lt_of_le ((show ∀ c ∈ parsed.mem, c.1 < 32 by decide) c hc) Laws.space_ge
  sizes := fun v hv => Nat.lt_of_lt_of_le
    ((show ∀ v ∈ [0, 6, 0, 0, 0, 6], v < 32 by decide) v hv) Laws.space_ge
  rejLegal := Nat.zero_le _
  rejNone := fun _ => rfl
  acceptedFlags := fun _ => ⟨rfl, rfl, rfl⟩
  acceptedHlen := fun _ => rfl
  ckvalKnown := rfl
  acceptedDict := fun _ h => nomatch h
  rejectedRecord := fun h => nomatch h
  cursors := fun _ h => nomatch h

theorem witness_HostReadRegister : Reg.dict 3 ≠ .cmd ∧ parsed.Inv := ⟨by decide, parsed_inv []⟩

/-- The first and the last address, and a byte that DECRYPT has written. -/
theorem witness_HostMemoryAccess :
    (0 < Config.space ∧ Config.space - 1 < Config.space) ∧
    (5 < Config.space ∧ Memory.read (after (exec .decrypt hello)).mem 5 = some 0xD3#8) :=
  have h : 0 < Config.space := Nat.two_pow_pos _
  ⟨⟨h, Nat.sub_one_lt (Nat.ne_of_gt h)⟩, Nat.lt_of_lt_of_le (by decide) Laws.space_ge, by decide⟩

theorem witness_UndefinedActionsNotPerformed :
    (HostAction.readReg .cmd).wf = false ∧ (HostAction.writeReg .ckmatch 1).wf = false ∧
    (HostAction.writeReg .lfsr 65536).wf = false ∧ (HostAction.issue 7#3).wf = false ∧
    (HostAction.writeReg .cmd 7).wf = false := by decide

theorem witness_ResetEvent :
    let s := parsed.setPending [.reset, .act (.readReg .valid)]
    s.cursors = none ∧ s.pending = .reset :: [.act (.readReg .valid)] := ⟨rfl, rfl⟩

theorem witness_StepKeepsInvariant :
    let s := parsed.setPending [.act (.writeReg .lfsr 65535)]
    s.Inv ∧ step s = .next (after (step s)) := ⟨parsed_inv _, rfl⟩

/-- A whole DECOMP, which begins and ends inside the step. -/
theorem witness_CommandsAreAtomic :
    let s := issued 5#3 (State.withDG (bench [0x07#8] 1 8 1))
    s.cursors = none ∧ step s = .next (after (step s)) := ⟨rfl, rfl⟩

/-! ### The host sequences -/

/-- The password "abc" of K4 up to the last address of `AW = 5`. -/
theorem witness_KeygenResult :
    let s := State.reset.setMem (Memory.writeBytes [] 29 [0x61#8, 0x62#8, 0x63#8])
    29 < Config.space ∧ 3 < Config.space ∧ 29 + 3 ≤ Config.space ∧ s.Holds 29 [0x61#8, 0x62#8, 0x63#8] :=
  ⟨Nat.lt_of_lt_of_le (by decide) Laws.space_ge, Nat.lt_of_lt_of_le (by decide) Laws.space_ge,
    inSpace_small (by decide), by simp only [State.Holds]; decide⟩

/-- H2. -/
theorem witness_UnpackHeaderError :
    let s := State.reset.setMem (Memory.writeBytes [] 29 [0x02#8, 0x13#8, 0x01#8])
    29 < Config.space ∧ 3 < Config.space ∧ 29 + 3 ≤ Config.space ∧ s.Holds 29 [0x02#8, 0x13#8, 0x01#8] ∧
      decodeHeader [0x02#8, 0x13#8, 0x01#8] = .error .tooShort :=
  ⟨Nat.lt_of_lt_of_le (by decide) Laws.space_ge, Nat.lt_of_lt_of_le (by decide) Laws.space_ge,
    inSpace_small (by decide), by simp only [State.Holds]; decide, by decide⟩

/-- A container with the checksum 1 and the payload 5. -/
def badSum : List Byte := [0x02#8, 0x13#8, 0x01#8, 0x20#8, 0x00#8, 0x01#8, 0x05#8]

/-- A state whose only written bytes are `bs` at `a`. -/
def holding (a : Nat) (bs : List Byte) : State := State.reset.setMem (Memory.writeBytes [] a bs)

theorem holding_holds (a : Nat) (bs : List Byte) : (holding a bs).Holds a bs :=
  fun _ h => Memory.read_writeBytes_inside _ _ _ _ h

/-- A region of `n` bytes up to the last address, where `n` bytes fit. -/
theorem top_fits {n : Nat} (h : 0 < n ∧ n ≤ 32) :
    Config.space - n < Config.space ∧ n ≤ Config.space ∧ Config.space - n + n ≤ Config.space := by
  have := Laws.space_ge; omega

theorem space_gt {n : Nat} (h : n < 32) : n < Config.space := Nat.lt_of_lt_of_le h Laws.space_ge

/-- At the bottom of MEM, and up to its last address. -/
theorem witness_UnpackIntegrityError :
    ∀ A ∈ [0, Config.space - 7],
      A < Config.space ∧ badSum.length < Config.space ∧ A + badSum.length ≤ Config.space ∧
      ([0x05#8] = [] → A + badSum.length < Config.space) ∧ (holding A badSum).Holds A badSum ∧
      decodeHeader badSum = .ok (⟨false, 0#5, none, some 1#16⟩, [0x05#8]) ∧
      (⟨false, 0#5, none, some 1#16⟩ : Header).cksum = some 1#16 ∧ sum16 [0x05#8] ≠ 1#16 := by
  intro A hA
  simp only [List.mem_cons, List.not_mem_nil, or_false] at hA
  have hl : badSum.length = 7 := rfl
  rw [hl]
  have := Laws.space_ge
  exact ⟨by omega, by omega, by omega, nofun, holding_holds _ _, by decide, rfl, by decide⟩

/-- A container with all three flags and a payload of two bytes: `run 2, 1` under the key of the password "a". -/
def full : List Byte :=
  [0x02#8, 0x13#8, 0x01#8, 0xE0#8] ++ (List.range 16).map (fun i => BitVec.ofNat 8 (0xA0 + i)) ++
    [0x00#8, 0xD8#8, 0x37#8, 0xA1#8]

/-- The header of `full`. -/
def fullHeader : Header := ⟨true, 0#5, some (table16 fun i => BitVec.ofNat 8 (0xA0 + i)), some 0x00D8#16⟩

/-- The hypotheses of `UnpackDecodes` together. -/
def UnpackPremises (s : State) (A P W O OC : Nat) (cont pw payload plain data : List Byte) (h : Header) : Prop :=
  s.cursors = none ∧ A < Config.space ∧ cont.length < Config.space ∧ A + cont.length ≤ Config.space ∧
    s.Holds A cont ∧ decodeHeader cont = .ok (h, payload) ∧ (∀ k, h.cksum = some k → sum16 payload = k) ∧
    (payload = [] → (h.csum || h.enc || h.comp) = true → A + cont.length < Config.space) ∧
    (h.enc = true → P < Config.space ∧ pw.length < Config.space ∧ P + pw.length ≤ Config.space ∧ s.Holds P pw ∧
      W < Config.space ∧ W + payload.length ≤ Config.space ∧ (W + payload.length ≤ A ∨ A + cont.length ≤ W)) ∧
    (h.comp = true → O < Config.space ∧ OC < Config.space ∧ O + OC ≤ Config.space ∧
      (O + OC ≤ A ∨ A + cont.length ≤ O) ∧ (h.enc = true → O + OC ≤ W ∨ W + payload.length ≤ O)) ∧
    plain = (if h.enc then cipherBytes (sum16 pw) payload else payload) ∧
    data = (match h.dict with
      | some d => (expand (fun i => d[i.toNat]'i.isLt) plain).take OC
      | none => plain)

/-- All three flags: the container at 0, the work region behind it, the password, the output region; all below 32. -/
theorem witness_UnpackDecodes :
    UnpackPremises (State.reset.setMem (Memory.writeBytes (Memory.writeBytes [] 0 full) 26 [0x61#8])) 0 26 24 27 4 full
      [0x61#8] [0x37#8, 0xA1#8] [0x07#8, 0x21#8] [0xA1#8, 0xA1#8] fullHeader :=
  ⟨rfl, space_gt (by decide), space_gt (by decide), inSpace_small (by decide), by simp only [State.Holds]; decide,
    by decide, fun k hk => by simp only [fullHeader, Option.some.injEq] at hk; subst hk; decide, by decide,
    fun _ => ⟨space_gt (by decide), space_gt (by decide), inSpace_small (by decide),
      by simp only [State.Holds]; decide, space_gt (by decide), inSpace_small (by decide), by decide⟩,
    fun _ => ⟨space_gt (by decide), space_gt (by decide), inSpace_small (by decide), by decide, by decide⟩,
    by decide, by decide⟩

/-- No flag and no payload, the header up to the last address. -/
theorem witness_UnpackDecodes_plain :
    UnpackPremises (holding (Config.space - 4) [0x02#8, 0x13#8, 0x01#8, 0x00#8]) (Config.space - 4) 0 0 0 0
      [0x02#8, 0x13#8, 0x01#8, 0x00#8] [] [] [] [] ⟨false, 0#5, none, none⟩ :=
  have top := top_fits (n := 4) (by decide)
  ⟨rfl, top.1, space_gt (by decide), top.2.2, holding_holds _ _, by decide, nofun, nofun, nofun, nofun, rfl, rfl⟩

/-- Compressed only, with an output region up to the last address. -/
theorem witness_UnpackDecodes_compressed :
    let cont := [0x02#8, 0x13#8, 0x01#8, 0x80#8] ++ (List.range 16).map (fun i => BitVec.ofNat 8 (0xA0 + i)) ++
      [0x07#8, 0x21#8]
    UnpackPremises (holding 0 cont) 0 0 0 (Config.space - 4) 4 cont [] [0x07#8, 0x21#8] [0x07#8, 0x21#8]
      [0xA1#8, 0xA1#8] ⟨false, 0#5, some (table16 fun i => BitVec.ofNat 8 (0xA0 + i)), none⟩ :=
  have top := top_fits (n := 4) (by decide)
  ⟨rfl, space_gt (by decide), space_gt (by decide), inSpace_small (by decide), holding_holds _ _, by decide, nofun,
    nofun, nofun, fun _ => ⟨top.1, space_gt (by decide), top.2.2,
      .inr (Nat.le_sub_of_add_le (inSpace_small (n := 22 + 4) (by decide))), nofun⟩, by decide, by decide⟩

/-- Encrypted only, the container up to the last address. -/
theorem witness_UnpackDecodes_encrypted :
    let cont := [0x02#8, 0x13#8, 0x01#8, 0x40#8, 0x37#8]
    UnpackPremises ((holding (Config.space - 5) cont).setMem (Memory.writeBytes (holding (Config.space - 5) cont).mem 0
      [0x61#8])) (Config.space - 5) 0 1 0 0 cont [0x61#8] [0x37#8] [0x07#8] [0x07#8] ⟨true, 0#5, none, none⟩ :=
  have top := top_fits (n := 5) (by decide)
  have := Laws.space_ge
  ⟨rfl, top.1, space_gt (by decide), top.2.2,
    fun i hi => by
      rw [State.setMem_mem, Memory.read_writeBytes_outside _ _ _ _ (by simp only [List.length_singleton]; omega)]
      exact holding_holds _ _ i hi,
    by decide, nofun, nofun,
    fun _ => ⟨space_gt (by decide), space_gt (by decide), inSpace_small (by decide),
      fun _ h => Memory.read_writeBytes_inside _ _ _ _ h, space_gt (by decide), inSpace_small (by decide),
      .inl (Nat.le_sub_of_add_le (inSpace_small (n := 2 + 5) (by decide)))⟩, nofun, by decide, rfl⟩

end Sys2Proof.Tests
end

section
/-! PROOFS. What a step does between two commands (`spec/00_scope.md` R13). -/

namespace Sys2Proof.Machine

/-- R13: between two commands the first pending event decides the step, host action or reset alike. -/
theorem step_of_pending_cons {s : State} {e : Event} {rest : List Event} (hc : s.cursors = none)
    (hp : s.pending = e :: rest) : step s = eventStep e (s.setPending rest) := by
  simp only [step, hc, hp]

@[simp] theorem eventStep_act (a : HostAction) (s : State) : eventStep (.act a) s = hostStep a s := rfl

/-- Settles O42: the first pending event decides the step, and as an event a host action is `hostStep`. -/
theorem stepRunsHostAction : Obligations.StepRunsHostAction := by
  intro s a rest hc hp
  calc step s = eventStep (.act a) (s.setPending rest) := step_of_pending_cons hc hp
    _ = hostStep a (s.setPending rest) := eventStep_act a _

end Sys2Proof.Machine
end

section
/-! PROOFS. Shared facts about commands: the launch premises (R64, R65) depend on SRC, LEN, DST and CAP alone, what a
command that goes on has done, the turns of DECOMP's loop, and the rows the command codes name. -/

namespace Sys2Proof

/-- R34, R212: every cause of a rejection is a code from 1 to 5. -/
theorem HeaderReject.code_bounds (cause : HeaderReject) : 1 ≤ cause.code.toNat ∧ cause.code.toNat ≤ 5 := by
  cases cause <;> decide

end Sys2Proof

namespace Sys2Proof.Machine

variable {s t : State} {c : Cursors} {r : Record}

/-! ## Launch premises and cursors under an update that leaves the regions -/

/-- The two states have the same input region and the same output region. -/
structure SameRegions (s t : State) : Prop where
  src : t.srcOp = s.srcOp
  len : t.lenOp = s.lenOp
  dst : t.dstOp = s.dstOp
  cap : t.capOp = s.capOp

theorem SameRegions.inputInRange_iff (e : SameRegions s t) : t.InputInRange ↔ s.InputInRange := by
  simp only [State.InputInRange, e.src, e.len]

theorem SameRegions.outputInRange_iff (e : SameRegions s t) : t.OutputInRange ↔ s.OutputInRange := by
  simp only [State.OutputInRange, e.dst, e.cap]

theorem SameRegions.regionsDisjoint_iff (e : SameRegions s t) : t.RegionsDisjoint ↔ s.RegionsDisjoint := by
  simp only [State.RegionsDisjoint, e.src, e.len, e.dst, e.cap]

theorem SameRegions.launchable (e : SameRegions s t) (h : s.Launchable) : t.Launchable :=
  ⟨e.inputInRange_iff.2 h.input, e.outputInRange_iff.2 h.output, e.regionsDisjoint_iff.2 h.disjoint⟩

theorem SameRegions.cursorsOk (e : SameRegions s t) (h : s.CursorsOk c) : t.CursorsOk c :=
  ⟨e.len ▸ h.ic, e.cap ▸ h.oc, e.launchable h.launch⟩

/-- The record is no operand of a region. -/
theorem sameRegions_setRecord : SameRegions s (s.setRecord r) := ⟨rfl, rfl, rfl, rfl⟩

/-! ## What a command that goes on has met -/

theorem launchIn_next {run : State → Result} (h : launchIn s run = .next t) : s.InputInRange ∧ run s = .next t := by
  obtain ⟨hin, e⟩ | ⟨-, e⟩ := launchIn_cases s run
  · exact ⟨hin, e ▸ h⟩
  · rw [e] at h; cases h

theorem launchInOut_next {run : State → Result} (h : launchInOut s run = .next t) :
    s.Launchable ∧ run s = .next t := by
  obtain ⟨hl, e⟩ | ⟨-, e⟩ | ⟨-, e⟩ := launchInOut_cases s run
  · exact ⟨hl, e ▸ h⟩
  · rw [e] at h; cases h
  · rw [e] at h; cases h

/-- A PARSE that goes on has rejected or accepted (R129). -/
theorem execParse_next (h : execParse s = .next t) :
    (∃ cause : HeaderReject, t = s.reject cause.code) ∨ ∃ hd, t = s.accept hd := by
  obtain ⟨-, h⟩ := launchIn_next h
  split at h
  · next cause _ => exact .inl ⟨cause, by cases h; rfl⟩
  · next hd _ _ => exact .inr ⟨hd, by cases h; rfl⟩

theorem execCksum_next (h : execCksum s = .next t) :
    s.InputInRange ∧ t = s.setSum (.put (sum16 (s.inBytes 0 s.lenOp))) := by
  obtain ⟨hin, h⟩ := launchIn_next h
  exact ⟨hin, by cases h; rfl⟩

theorem execDecrypt_next (h : execDecrypt s = .next t) : s.Launchable ∧
    t = ((s.output 0 (cipherLoop false (lfsrStep s.keyOp) s.cipherInput).1).setLfsr
      (.put (cipherLoop false (lfsrStep s.keyOp) s.cipherInput).2)).setRlen
      (.put (cipherLoop false (lfsrStep s.keyOp) s.cipherInput).1.length) := by
  obtain ⟨hl, h⟩ := launchInOut_next h
  exact ⟨hl, by cases h; rfl⟩

theorem execDecomp_next (h : execDecomp s = .next t) :
    s.Launchable ∧ decompLoop (s.lenOp + 1) (s.setCursors (some ⟨0, 0⟩)) = .next t := launchInOut_next h

/-! ## One turn of DECOMP and its loop -/

theorem State.tokenBytes_ne_nil {ic : Nat} (h : ic < s.lenOp) : s.tokenBytes ic ≠ [] := by
  rw [← List.length_pos_iff, State.tokenBytes, State.length_inBytes]
  omega

theorem tokenStep_token {tok : Token} {rest : List Byte} (hroom : c.ic < s.lenOp ∧ c.oc < s.capOp)
    (hdec : decodeToken (s.tokenBytes c.ic) = some (tok, rest)) : tokenStep s c = execToken tok s := by
  simp only [tokenStep, if_pos hroom, hdec]

theorem tokenStep_ends (hroom : ¬ (c.ic < s.lenOp ∧ c.oc < s.capOp)) : tokenStep s c = .next (s.finish c) :=
  if_neg hroom

/-- Without cursors the loop has ended, whatever fuel is left. -/
theorem decompLoop_of_ended (fuel : Nat) (hc : s.cursors = none) : decompLoop fuel s = .next s := by
  cases fuel <;> simp only [decompLoop, hc]

theorem decompLoop_succ (fuel : Nat) (hc : s.cursors = some c) :
    decompLoop (fuel + 1) s = andThen (tokenStep s c) (decompLoop fuel) := by
  simp only [decompLoop, hc]

/-! ## Command codes -/

/-- R96, R102: a code is one of the five commands, or its row is refused in every state. -/
theorem decodeCommand_cases (c : BitVec 3) :
    decodeCommand c ∈ commands ∨ ∃ r, ∀ s, exec (decodeCommand c) s = .refused r := by
  have hrow : ∀ c : BitVec 3, decodeCommand c ∈ commands ∨ decodeCommand c = .reserved000 ∨
      decodeCommand c = .reserved110 ∨ decodeCommand c = .reserved111 := by decide
  obtain hc | e | e | e := hrow c
  · exact .inl hc
  · exact .inr ⟨_, fun s => by rw [e]; rfl⟩
  · exact .inr ⟨_, fun s => by rw [e]; rfl⟩
  · exact .inr ⟨_, fun s => by rw [e]; rfl⟩

end Sys2Proof.Machine
end

section
/-! PROOFS. Every step keeps the invariant: one lemma per update of State, then one per command, token, host action and
event. -/

namespace Sys2Proof.Machine

variable {s t : State} {c : Cursors} {r : Record}

/-! ## Operands and memory inside the address space -/

theorem Held.observe_lt {x : Held Nat} {free b : Nat} (hval : x.val < b) (hfree : free < b) : x.observe free < b := by
  unfold Held.observe
  split
  · exact hval
  · exact hfree

theorem State.Inv.capOp_lt (h : s.Inv) : s.capOp < Config.space :=
  Held.observe_lt (h.sizes s.cap.val (by simp)) (Laws.freeSize_lt _ _)

/-! ## Updates -/

theorem State.Inv.cursorsOk_of_sameRegions (h : s.Inv) (e : SameRegions s t) (hc : t.cursors = s.cursors) :
    ∀ c, t.cursors = some c → t.CursorsOk c :=
  fun c ht => e.cursorsOk (h.cursors c (hc ▸ ht))

/-- Before the host's next action a new draw is made; it moves no cursor, since none exists between commands. -/
theorem State.Inv.nextDraw (h : s.Inv) (hc : s.cursors = none) : s.nextDraw.Inv :=
  { h with cursors := by simp [hc] }

theorem State.Inv.setPending (h : s.Inv) (p : List Event) : (s.setPending p).Inv :=
  { h with cursors := h.cursorsOk_of_sameRegions ⟨rfl, rfl, rfl, rfl⟩ rfl }

theorem State.Inv.answer (h : s.Inv) (v : Nat) : (s.answer v).Inv :=
  { h with cursors := h.cursorsOk_of_sameRegions ⟨rfl, rfl, rfl, rfl⟩ rfl }

theorem State.Inv.setKey (h : s.Inv) (v : Held Word) : (s.setKey v).Inv :=
  { h with cursors := h.cursorsOk_of_sameRegions ⟨rfl, rfl, rfl, rfl⟩ rfl }

theorem State.Inv.setLfsr (h : s.Inv) (v : Held Word) : (s.setLfsr v).Inv :=
  { h with cursors := h.cursorsOk_of_sameRegions ⟨rfl, rfl, rfl, rfl⟩ rfl }

theorem State.Inv.setSum (h : s.Inv) (v : Held Word) : (s.setSum v).Inv :=
  { h with cursors := h.cursorsOk_of_sameRegions ⟨rfl, rfl, rfl, rfl⟩ rfl }

theorem State.Inv.setRlen (h : s.Inv) {v : Nat} (hv : v < Config.space) : (s.setRlen (.put v)).Inv :=
  { h with
    sizes := by have := h.sizes; simp_all
    cursors := h.cursorsOk_of_sameRegions ⟨rfl, rfl, rfl, rfl⟩ rfl }

/-- The registers that hold the regions are written between commands only, when no cursor stands in them. -/
theorem State.Inv.setSrc (h : s.Inv) (hc : s.cursors = none) {v : Nat} (hv : v < Config.space) :
    (s.setSrc (.put v)).Inv :=
  { h with sizes := by have := h.sizes; simp_all, cursors := by simp [hc] }

theorem State.Inv.setLen (h : s.Inv) (hc : s.cursors = none) {v : Nat} (hv : v < Config.space) :
    (s.setLen (.put v)).Inv :=
  { h with sizes := by have := h.sizes; simp_all, cursors := by simp [hc] }

theorem State.Inv.setDst (h : s.Inv) (hc : s.cursors = none) {v : Nat} (hv : v < Config.space) :
    (s.setDst (.put v)).Inv :=
  { h with sizes := by have := h.sizes; simp_all, cursors := by simp [hc] }

theorem State.Inv.setCap (h : s.Inv) (hc : s.cursors = none) {v : Nat} (hv : v < Config.space) :
    (s.setCap (.put v)).Inv :=
  { h with sizes := by have := h.sizes; simp_all, cursors := by simp [hc] }

/-- A written DICT entry holds a value, so the dictionary of an accepted record stays complete. -/
theorem State.Inv.setDict (h : s.Inv) (i : BitVec 4) (v : Byte) : (s.setDict i (.put v)).Inv :=
  { h with
    acceptedDict := fun hvalid hcomp j => by
      rw [State.dictEntry_setDict]
      split
      · rfl
      · exact h.acceptedDict hvalid hcomp j
    cursors := h.cursorsOk_of_sameRegions ⟨rfl, rfl, rfl, rfl⟩ rfl }

theorem State.Inv.setMem (h : s.Inv) {m : Memory} (hwf : Memory.wf m = true) (hm : ∀ x ∈ m, x.1 < Config.space) :
    (s.setMem m).Inv :=
  { h with
    memWf := hwf
    memSpace := hm
    cursors := h.cursorsOk_of_sameRegions ⟨rfl, rfl, rfl, rfl⟩ rfl }

theorem State.Inv.writeMem (h : s.Inv) {a : Nat} (ha : a < Config.space) (b : Byte) :
    (s.setMem (Memory.write s.mem a b)).Inv := by
  refine h.setMem (Memory.wf_write _ _ _ h.memWf) fun x hx => ?_
  obtain rfl | hx := Memory.mem_write hx
  · exact ha
  · exact h.memSpace x hx

theorem State.Inv.output (h : s.Inv) {i : Nat} {vs : List Byte} (hfit : s.dstOp + i + vs.length ≤ Config.space) :
    (s.output i vs).Inv := by
  refine h.setMem (Memory.wf_writeBytes _ _ _ h.memWf) fun x hx => ?_
  obtain ⟨-, hlt⟩ | hx := Memory.mem_writeBytes hx
  · exact Nat.lt_of_lt_of_le hlt hfit
  · exact h.memSpace x hx

theorem State.Inv.setCursors (h : s.Inv) (hc : s.CursorsOk c) : (s.setCursors (some c)).Inv :=
  { h with
    cursors := fun _ e => by
      cases e
      exact SameRegions.cursorsOk (s := s) ⟨rfl, rfl, rfl, rfl⟩ hc }

theorem State.Inv.clearCursors (h : s.Inv) : (s.setCursors none).Inv :=
  { h with cursors := fun _ e => by cases e }

/-! ## The record -/

/-- The clauses of the invariant that speak of what PARSE writes (R29 to R34). -/
structure Record.Ok (r : Record) : Prop where
  hlenSize : r.hlen.val < Config.space
  rejLegal : r.rej.toNat ≤ 5
  rejNone : r.valid = true → r.rej = 0#3
  acceptedFlags : r.valid = true → r.comp.known = true ∧ r.enc.known = true ∧ r.csum.known = true
  acceptedHlen : r.valid = true → r.hlen = .put (4 + 16 * r.comp.val.toNat + 2 * r.csum.val.toNat)
  ckvalKnown : r.ckval.known = (r.valid && r.csum.val)
  acceptedDict : r.valid = true → r.comp.val = true → ∀ i (hi : i < 16), r.dict[i].known = true
  rejectedRecord : r.valid = false →
    r.comp.known = false ∧ r.enc.known = false ∧ r.csum.known = false ∧ r.hlen.known = false

/-- A record that meets its clauses can replace the record of any state. -/
theorem State.Inv.setRecord (h : s.Inv) (hr : r.Ok) : (s.setRecord r).Inv where
  memWf := h.memWf
  memSpace := h.memSpace
  sizes := by have := h.sizes; have := hr.hlenSize; simp_all
  rejLegal := hr.rejLegal
  rejNone := hr.rejNone
  acceptedFlags := hr.acceptedFlags
  acceptedHlen := hr.acceptedHlen
  ckvalKnown := hr.ckvalKnown
  acceptedDict := fun hvalid hcomp i => hr.acceptedDict hvalid hcomp i.toNat i.isLt
  rejectedRecord := hr.rejectedRecord
  cursors := h.cursorsOk_of_sameRegions sameRegions_setRecord rfl

theorem State.rejected_ok (s : State) (cause : HeaderReject) : (s.rejected cause.code).Ok where
  hlenSize := Laws.freeSize_lt _ _
  rejLegal := cause.code_bounds.2
  rejNone := nofun
  acceptedFlags := nofun
  acceptedHlen := nofun
  ckvalKnown := rfl
  acceptedDict := nofun
  rejectedRecord := fun _ => ⟨rfl, rfl, rfl, rfl⟩

/-- R128: the longest header has 22 bytes, and every address space has at least 32. -/
theorem headerLength_lt_space (comp csum : Bool) : 4 + 16 * comp.toNat + 2 * csum.toNat < Config.space := by
  have hspace := Laws.space_ge
  have hcomp := Bool.toNat_le comp
  have hcsum := Bool.toNat_le csum
  omega

theorem State.accepted_ok (s : State) (h : Header) : (s.accepted h).Ok where
  hlenSize := headerLength_lt_space _ _
  rejLegal := Nat.zero_le _
  rejNone := fun _ => rfl
  acceptedFlags := fun _ => ⟨rfl, rfl, rfl⟩
  acceptedHlen := fun _ => rfl
  ckvalKnown := by
    cases hk : h.cksum <;> simp [State.accepted, Header.csum, hk]
  acceptedDict := fun _ hcomp i hi => by
    obtain ⟨d, hd⟩ := Option.isSome_iff_exists.1 (show h.dict.isSome = true from hcomp)
    simp [State.accepted, hd]
  rejectedRecord := nofun

/-! ## Tokens and commands -/

theorem State.Inv.finish (h : s.Inv) (hc : s.CursorsOk c) : (s.finish c).Inv :=
  (h.setRlen (Nat.lt_of_le_of_lt hc.oc h.capOp_lt)).clearCursors

/-- One turn of DECOMP keeps the invariant: its bytes stay below `DST + CAP`, its cursors below LEN and CAP. -/
theorem tokenStep_keeps_inv (hs : s.Inv) (hc : s.cursors = some c) (h : tokenStep s c = .next t) : t.Inv := by
  have hok := hs.cursors c hc
  obtain ⟨rfl, -⟩ | ⟨tok, rest, -, -, -, hused, rfl⟩ := tokenStep_next hc h
  · exact hs.finish hok
  · have hroom := s.room_fits (tokenCount tok) hok.oc
    have hout : s.dstOp + s.capOp ≤ Config.space := hok.launch.output
    have hmem := hs.output (i := c.oc) (vs := List.replicate (s.room c.oc (tokenCount tok)) (tokenByte s tok))
      (by rw [List.length_replicate]; omega)
    exact hmem.setCursors ⟨hused, hroom, SameRegions.launchable (s := s) ⟨rfl, rfl, rfl, rfl⟩ hok.launch⟩

theorem decompLoop_keeps_inv {fuel : Nat} (hs : s.Inv) (h : decompLoop fuel s = .next t) : t.Inv := by
  induction fuel generalizing s with
  | zero => cases h; exact hs
  | succ fuel ih =>
    cases hc : s.cursors with
    | none => rw [decompLoop_of_ended _ hc] at h; cases h; exact hs
    | some c =>
      rw [decompLoop_succ _ hc] at h
      obtain ⟨u, hu, h⟩ := andThen_eq_next h
      exact ih (tokenStep_keeps_inv hs hc hu) h

theorem execParse_keeps_inv (hs : s.Inv) (h : execParse s = .next t) : t.Inv := by
  obtain ⟨cause, rfl⟩ | ⟨hd, rfl⟩ := execParse_next h
  · exact hs.setRecord (s.rejected_ok cause)
  · exact hs.setRecord (s.accepted_ok hd)

theorem execDecrypt_keeps_inv (hs : s.Inv) (h : execDecrypt s = .next t) : t.Inv := by
  obtain ⟨hl, rfl⟩ := execDecrypt_next h
  have hlen : (cipherLoop false (lfsrStep s.keyOp) s.cipherInput).1.length = min s.lenOp s.capOp := by
    simp [State.cipherInput]
  have hout : s.dstOp + s.capOp ≤ Config.space := hl.output
  have hcap := hs.capOp_lt
  exact ((hs.output (by omega)).setLfsr _).setRlen (by omega)

theorem execDecomp_keeps_inv (hs : s.Inv) (h : execDecomp s = .next t) : t.Inv := by
  obtain ⟨hl, h⟩ := execDecomp_next h
  exact decompLoop_keeps_inv (hs.setCursors ⟨Nat.zero_le _, Nat.zero_le _, hl⟩) h

theorem command_keeps_inv {i : Instr} (hi : i ∈ commands) (hs : s.Inv) (h : exec i s = .next t) : t.Inv := by
  simp only [commands, List.mem_cons, List.not_mem_nil, or_false] at hi
  obtain rfl | rfl | rfl | rfl | rfl := hi
  · exact execParse_keeps_inv hs h
  · obtain ⟨-, rfl⟩ := execCksum_next h
    exact hs.setSum _
  · cases h; exact hs.setLfsr _
  · exact execDecrypt_keeps_inv hs h
  · exact execDecomp_keeps_inv hs h

/-! ## Host actions, events and steps -/

theorem State.Inv.writeReg (h : s.Inv) (hc : s.cursors = none) {r : Reg} {v : Nat} (hv : v < 2 ^ r.width) :
    (s.writeReg r v).Inv := by
  cases r with
  | key => exact h.setKey _
  | lfsr => exact h.setLfsr _
  | src => exact h.setSrc hc hv
  | len => exact h.setLen hc hv
  | dst => exact h.setDst hc hv
  | cap => exact h.setCap hc hv
  | dict i => exact h.setDict i _
  | cmd | sum | rlen | valid | comp | enc | csum | ckval | hlen | rej | ckmatch => exact h

theorem hostAct_keeps_inv {a : HostAction} (hs : s.Inv) (hc : s.cursors = none) (h : hostAct a s = .next t) :
    t.Inv := by
  obtain ⟨r, v, -, -, -, hv, rfl⟩ | ⟨c, -, h⟩ | ⟨r, -, -, rfl⟩ | ⟨x, b, -, hx, rfl⟩ | ⟨x, -, -, rfl⟩ := hostAct_next h
  · exact hs.writeReg hc hv
  · obtain hcmd | ⟨r, hr⟩ := decodeCommand_cases c
    · exact command_keeps_inv hcmd hs h
    · rw [hr] at h; cases h
  · exact hs.answer _
  · exact hs.writeMem hx b
  · exact hs.answer _

/-- R44, R240: a reset leaves nothing that the invariant could refuse, whatever the state was. -/
theorem State.resetNow_inv (s : State) : s.resetNow.Inv where
  memWf := rfl
  memSpace := nofun
  sizes := fun v hv => by
    have hzero : v = 0 := by simpa [State.reset] using hv
    exact hzero ▸ Nat.two_pow_pos _
  rejLegal := Nat.zero_le _
  rejNone := nofun
  acceptedFlags := nofun
  acceptedHlen := nofun
  ckvalKnown := rfl
  acceptedDict := nofun
  rejectedRecord := fun _ => ⟨rfl, rfl, rfl, rfl⟩
  cursors := nofun

theorem eventStep_keeps_inv {e : Event} (hs : s.Inv) (hc : s.cursors = none) (h : eventStep e s = .next t) :
    t.Inv := by
  cases e with
  | act a => exact hostAct_keeps_inv (hs.nextDraw hc) hc h
  | reset => cases h; exact s.resetNow_inv.nextDraw rfl

/-- Settles O55, by the three things a step can be: a turn of the running DECOMP, nothing, or the next event. -/
theorem stepKeepsInvariant : Obligations.StepKeepsInvariant := by
  intro s t hs h
  obtain ⟨c, hc, e⟩ | ⟨-, -, e⟩ | ⟨ev, rest, hc, -, e⟩ := step_cases s
  · exact tokenStep_keeps_inv hs hc (e ▸ h)
  · rw [e] at h; cases h; exact hs
  · exact eventStep_keeps_inv (hs.setPending rest) hc (e ▸ h)

end Sys2Proof.Machine
end

section
/-! PROOFS. PARSE and the record: its verdict, and that it neither keeps nor consults the record before it. -/

namespace Sys2Proof.Machine

variable {s t : State} {r : Record}

/-- Settles O7: the header is rejected with a cause from 1 to 5, or accepted. -/
theorem parseVerdict : Obligations.ParseVerdict := by
  intro s hin
  show ∃ t, execParse s = .next t ∧ _
  rw [execParse_runs hin]
  cases decodeHeader s.headerBytes with
  | error cause => exact ⟨_, rfl, .inr ⟨rfl, cause.code_bounds⟩⟩
  | ok hd => exact ⟨_, rfl, .inl ⟨rfl, rfl⟩⟩

/-- R131: the bytes PARSE reads are no field of the record. -/
theorem State.headerBytes_setRecord : (s.setRecord r).headerBytes = s.headerBytes := rfl

/-- R130: a rejection writes every field of the record. -/
theorem State.reject_setRecord (cause : BitVec 3) : (s.setRecord r).reject cause = s.reject cause := rfl

/-- R127: an acceptance writes every field of the record. -/
theorem State.accept_setRecord (h : Header) : (s.setRecord r).accept h = s.accept h := rfl

/-- Settles O9: the launch premise and the header bytes are the same, and either end of PARSE overwrites the record. -/
theorem parseOverwritesRecord : Obligations.ParseOverwritesRecord := by
  intro s r
  show execParse (s.setRecord r) = execParse s
  by_cases hin : s.InputInRange
  · rw [execParse_runs hin, execParse_runs (sameRegions_setRecord.inputInRange_iff.2 hin), State.headerBytes_setRecord]
    cases decodeHeader s.headerBytes with
    | error cause => exact congrArg Host.Outcome.next (State.reject_setRecord cause.code)
    | ok hd => exact congrArg Host.Outcome.next (State.accept_setRecord hd.1)
  · rw [execParse_outOfRange hin, execParse_outOfRange (mt sameRegions_setRecord.inputInRange_iff.1 hin)]

end Sys2Proof.Machine
end

section
/-! PROOFS. The payload commands see nothing of the record but DICT (R36): each commutes with replacing the record by
one with the same DICT. -/

namespace Sys2Proof.Machine

variable {s t : State} {r : Record}

theorem State.dictOp_setRecord (hd : r.dict = s.dict) (i : BitVec 4) : (s.setRecord r).dictOp i = s.dictOp i := by
  simp only [State.dictOp, State.dictEntry, State.setRecord_dict, State.setRecord_draws, hd]

theorem execToken_setRecord (hd : r.dict = s.dict) {tok : Token} (h : execToken tok s = .next t) :
    execToken tok (s.setRecord r) = .next (t.setRecord r) := by
  have hbyte : tokenByte (s.setRecord r) tok = tokenByte s tok := by
    cases tok with
    | run _ n => exact State.dictOp_setRecord hd n
    | lit _ | esclit | esceof => rfl
  rw [execToken_eq] at h ⊢
  obtain ⟨c, hc, rfl⟩ := State.emit_next h
  rw [State.emit_running (s := s.setRecord r) hc, hbyte]
  rfl

theorem tokenStep_setRecord (hd : r.dict = s.dict) {c : Cursors} (h : tokenStep s c = .next t) :
    tokenStep (s.setRecord r) c = .next (t.setRecord r) := by
  by_cases hroom : c.ic < s.lenOp ∧ c.oc < s.capOp
  · obtain ⟨tok, rest, hdec, -⟩ := decodeToken_some (State.tokenBytes_ne_nil hroom.1)
    rw [tokenStep_token hroom hdec] at h
    rw [tokenStep_token (s := s.setRecord r) hroom hdec]
    exact execToken_setRecord hd h
  · rw [tokenStep_ends hroom] at h
    rw [tokenStep_ends (s := s.setRecord r) hroom]
    cases h; rfl

/-- DECOMP writes no entry of DICT. -/
theorem tokenStep_dict {c : Cursors} (hc : s.cursors = some c) (h : tokenStep s c = .next t) : t.dict = s.dict := by
  obtain ⟨rfl, -⟩ | ⟨tok, rest, -, -, -, -, rfl⟩ := tokenStep_next hc h
  · rfl
  · rfl

theorem decompLoop_setRecord {fuel : Nat} (hd : r.dict = s.dict) (h : decompLoop fuel s = .next t) :
    decompLoop fuel (s.setRecord r) = .next (t.setRecord r) := by
  induction fuel generalizing s with
  | zero => cases h; rfl
  | succ fuel ih =>
    cases hc : s.cursors with
    | none =>
      rw [decompLoop_of_ended _ hc] at h
      cases h
      exact decompLoop_of_ended _ hc
    | some c =>
      rw [decompLoop_succ _ hc] at h
      obtain ⟨u, hu, h⟩ := andThen_eq_next h
      rw [decompLoop_succ (s := s.setRecord r) _ hc, tokenStep_setRecord hd hu, andThen_next]
      exact ih (hd.trans (tokenStep_dict hc hu).symm) h

theorem execDecomp_setRecord (hd : r.dict = s.dict) (h : execDecomp s = .next t) :
    execDecomp (s.setRecord r) = .next (t.setRecord r) := by
  obtain ⟨hl, h⟩ := execDecomp_next h
  rw [execDecomp_runs (sameRegions_setRecord.launchable hl)]
  exact decompLoop_setRecord (s := s.setCursors (some ⟨0, 0⟩)) hd h

/-- Settles O37: CKSUM, STEP and DECRYPT read no field of the record, DECOMP reads DICT alone and keeps it. -/
theorem payloadCommandsIgnoreStatus : Obligations.PayloadCommandsIgnoreStatus := by
  intro i hi s t r hd h
  simp only [List.mem_cons, List.not_mem_nil, or_false] at hi
  obtain rfl | rfl | rfl | rfl := hi
  · obtain ⟨hin, rfl⟩ := execCksum_next h
    exact execCksum_runs (sameRegions_setRecord.inputInRange_iff.2 hin)
  · cases h; rfl
  · obtain ⟨hl, rfl⟩ := execDecrypt_next h
    exact execDecrypt_runs (sameRegions_setRecord.launchable hl)
  · exact execDecomp_setRecord hd h

end Sys2Proof.Machine
end

section
/-! PROOFS. What the host reads in CKMATCH, what it issues through CMD, and what stands in the registers at reset. -/

namespace Sys2Proof.Machine

/-- R35 where CKMATCH is specified. -/
theorem State.readReg_ckmatch {s : State} (hsum : s.sum.known = true) (hckval : s.ckval.known = true) :
    s.readReg .ckmatch = if s.sum.val = s.ckval.val then 1 else 0 := by
  by_cases heq : s.sum.val = s.ckval.val <;> simp [State.readReg, State.ckmatch, hsum, hckval, heq]

/-- R190: a host read of a register other than CMD answers what the register shows in a new draw. -/
theorem hostStep_readReg {r : Reg} (hr : r.hostReads = true) (s : State) :
    hostStep (.readReg r) s = .next (s.nextDraw.answer (s.nextDraw.readReg r)) := if_pos hr

/-- Settles O14: the read answers the comparison where both registers hold a value, and CKMATCH has their marks. -/
theorem ckmatchCompares : Obligations.CkmatchCompares := by
  intro s
  constructor
  · intro hsum hckval
    refine ⟨_, hostStep_readReg rfl s, ?_⟩
    rw [State.answer_answers, State.readReg_ckmatch (s := s.nextDraw) hsum hckval]
    rfl
  · intro hunknown
    show (s.sum.known && s.ckval.known) = false
    rwa [Bool.and_eq_false_iff]

/-- Settles O44: an issue is the write of its code to CMD, and that write runs the command of the code. -/
theorem cmdWriteIssues : Obligations.CmdWriteIssues := by
  intro s c
  have hissue : hostStep (.issue c) s = hostStep (.writeReg .cmd c.toNat) s := rfl
  exact ⟨hissue.symm.trans (hostAct_issue c s.nextDraw), hissue⟩

/-- R44: no entry of DICT holds a value at reset. -/
theorem reset_dictEntry (i : BitVec 4) : State.reset.dictEntry i = .unspecified 0#8 := table16_getElem _ _ i.isLt

/-- Settles O52: register by register, DICT by its entries; MEM lists no cell. -/
theorem resetState : Obligations.ResetState := by
  refine ⟨rfl, rfl, fun r hvalid hrej => ?_, fun _ => rfl, rfl⟩
  cases r with
  | valid => exact absurd rfl hvalid
  | rej => exact absurd rfl hrej
  | dict i =>
    show (State.reset.dictEntry i).known = false
    rw [reset_dictEntry, Held.unspecified_known]
  | cmd | key | lfsr | sum | src | len | dst | cap | rlen | comp | enc | csum | ckval | hlen | ckmatch => rfl

end Sys2Proof.Machine
end

section
/-! PROOFS. Which bytes of MEM the commands and the host read and write (`spec/20_memory.md` R60 to R65, R69): refused
regions, the header bytes PARSE reads, the input region DECRYPT and DECOMP leave, and the host's access to one cell. -/

namespace Sys2Proof.Machine

variable {s t : State} {c : Cursors} {x : Nat}

/-! ## Launches that are refused -/

/-- Settles O31: PARSE and CKSUM launch on the input region, DECRYPT and DECOMP on both regions. -/
theorem outOfRangeRefused : Obligations.OutOfRangeRefused := fun _ =>
  ⟨fun hin => ⟨execParse_outOfRange hin, execCksum_outOfRange hin⟩,
    fun hregions => ⟨execDecrypt_outOfRange hregions, execDecomp_outOfRange hregions⟩⟩

/-- Settles O32: a shared address is what disjoint regions do not have. -/
theorem overlapRefused : Obligations.OverlapRefused := by
  intro s i j hin hout hi hj hshared
  have hoverlap : ¬ s.RegionsDisjoint := fun hdisjoint => hdisjoint i j hi hj hshared
  exact ⟨execDecrypt_overlap hin hout hoverlap, execDecomp_overlap hin hout hoverlap⟩

/-! ## The bytes PARSE reads -/

/-- MEM holds no operand of a region. -/
theorem sameRegions_setMem (m : Memory) : SameRegions s (s.setMem m) := ⟨rfl, rfl, rfl, rfl⟩

/-- R131: the header bytes are the first `min(LEN, 22)` bytes of the input region, whatever else MEM holds. -/
theorem State.headerBytes_setMem {m : Memory} (h : ∀ i, i < min s.lenOp 22 → (s.setMem m).inByte i = s.inByte i) :
    (s.setMem m).headerBytes = s.headerBytes :=
  List.map_congr_left fun i hi => by
    rw [Nat.zero_add]
    exact h i (List.mem_range.1 hi)

/-- Settles O8: both header regions hold the same bytes, so they decode alike, and the record of either end of PARSE is
made from the decoded header and the draw alone. -/
theorem parseReadsOnlyHeader : Obligations.ParseReadsOnlyHeader := by
  intro s m hin hbytes
  show ∃ r, execParse s = _ ∧ execParse (s.setMem m) = _
  rw [execParse_runs hin, execParse_runs ((sameRegions_setMem m).inputInRange_iff.2 hin),
    State.headerBytes_setMem hbytes]
  cases decodeHeader s.headerBytes with
  | error cause => exact ⟨s.rejected cause.code, rfl, rfl⟩
  | ok hd => exact ⟨s.accepted hd.1, rfl, rfl⟩

/-! ## The bytes DECRYPT and DECOMP write -/

/-- R63, R65: an address of the input region is none of the output region. -/
theorem State.Launchable.input_outside_output (h : s.Launchable) {j : Nat} (hj : j < s.lenOp) :
    ¬ bytesAt s.dstOp s.capOp (s.srcOp + j) := by
  rintro ⟨hlo, hhi⟩
  exact h.disjoint j (s.srcOp + j - s.dstOp) hj (by omega) (by omega)

/-- Bytes written from output cursor `i` that fit the capacity leave everything outside the output region. -/
theorem State.output_outside_region {i : Nat} {vs : List Byte} (hfit : i + vs.length ≤ s.capOp)
    (hx : ¬ bytesAt s.dstOp s.capOp x) : Memory.read (s.output i vs).mem x = Memory.read s.mem x :=
  State.output_outside i vs x fun ⟨hlo, hhi⟩ => hx ⟨by omega, by omega⟩

/-- R155: DECRYPT writes inside its output region only. -/
theorem execDecrypt_mem_outside (h : execDecrypt s = .next t) (hx : ¬ bytesAt s.dstOp s.capOp x) :
    Memory.read t.mem x = Memory.read s.mem x := by
  obtain ⟨-, rfl⟩ := execDecrypt_next h
  refine State.output_outside_region ?_ hx
  rw [length_cipherLoop, State.cipherInput, State.length_inBytes]
  omega

/-- No turn of DECOMP moves a region. -/
theorem tokenStep_sameRegions (hc : s.cursors = some c) (h : tokenStep s c = .next t) : SameRegions s t := by
  obtain ⟨rfl, -⟩ | ⟨tok, rest, -, -, -, -, rfl⟩ := tokenStep_next hc h
  · exact ⟨rfl, rfl, rfl, rfl⟩
  · exact ⟨rfl, rfl, rfl, rfl⟩

/-- R173: a turn of DECOMP leaves the output cursor within the capacity. -/
theorem tokenStep_oc_le (hc : s.cursors = some c) (hoc : c.oc ≤ s.capOp) (h : tokenStep s c = .next t) :
    ∀ c', t.cursors = some c' → c'.oc ≤ s.capOp := by
  intro c' hc'
  obtain ⟨rfl, -⟩ | ⟨tok, rest, -, -, -, -, rfl⟩ := tokenStep_next hc h
  · cases hc'
  · cases hc'
    exact State.room_fits _ hoc

/-- A turn of DECOMP writes inside its output region only. -/
theorem tokenStep_mem_outside (hc : s.cursors = some c) (hoc : c.oc ≤ s.capOp) (h : tokenStep s c = .next t)
    (hx : ¬ bytesAt s.dstOp s.capOp x) : Memory.read t.mem x = Memory.read s.mem x := by
  obtain ⟨rfl, -⟩ | ⟨tok, rest, -, -, -, -, rfl⟩ := tokenStep_next hc h
  · rfl
  · refine State.output_outside_region ?_ hx
    rw [List.length_replicate]
    exact State.room_fits _ hoc

theorem decompLoop_mem_outside {fuel : Nat} (hoc : ∀ c, s.cursors = some c → c.oc ≤ s.capOp)
    (h : decompLoop fuel s = .next t) (hx : ¬ bytesAt s.dstOp s.capOp x) :
    Memory.read t.mem x = Memory.read s.mem x := by
  induction fuel generalizing s with
  | zero => cases h; rfl
  | succ fuel ih =>
    cases hc : s.cursors with
    | none => rw [decompLoop_of_ended _ hc] at h; cases h; rfl
    | some c =>
      rw [decompLoop_succ _ hc] at h
      obtain ⟨u, hu, h⟩ := andThen_eq_next h
      have e := tokenStep_sameRegions hc hu
      have hu_oc := tokenStep_oc_le hc (hoc c hc) hu
      calc Memory.read t.mem x = Memory.read u.mem x := ih (e.cap ▸ hu_oc) h (by rwa [e.dst, e.cap])
        _ = Memory.read s.mem x := tokenStep_mem_outside hc (hoc c hc) hu hx

/-- R175: DECOMP's loop goes on with any fuel, since each of its turns does. -/
theorem decompLoop_goes_on (fuel : Nat) (s : State) : ∃ t, decompLoop fuel s = .next t := by
  induction fuel generalizing s with
  | zero => exact ⟨s, rfl⟩
  | succ fuel ih =>
    cases hc : s.cursors with
    | none => exact ⟨s, decompLoop_of_ended _ hc⟩
    | some c =>
      obtain ⟨u, hu⟩ := tokenStep_goes_on hc
      rw [decompLoop_succ _ hc, hu, andThen_next]
      exact ih u

/-- R175: DECOMP writes inside its output region only. -/
theorem execDecomp_mem_outside (h : execDecomp s = .next t) (hx : ¬ bytesAt s.dstOp s.capOp x) :
    Memory.read t.mem x = Memory.read s.mem x := by
  obtain ⟨-, h⟩ := execDecomp_next h
  exact decompLoop_mem_outside (s := s.setCursors (some ⟨0, 0⟩)) (fun _ hc => by cases hc; exact Nat.zero_le _) h hx

/-- Settles O36: either command goes on and writes inside its output region only, and the input region lies outside. -/
theorem inputRegionNeverWritten : Obligations.InputRegionNeverWritten := by
  intro i hi s hl
  simp only [List.mem_cons, List.not_mem_nil, or_false] at hi
  obtain rfl | rfl := hi
  · have h := execDecrypt_runs hl
    exact ⟨_, h, fun j hj => execDecrypt_mem_outside h (hl.input_outside_output hj)⟩
  · obtain ⟨t, ht⟩ := decompLoop_goes_on (s.lenOp + 1) (s.setCursors (some ⟨0, 0⟩))
    have h := (execDecomp_runs hl).trans ht
    exact ⟨t, h, fun j hj => execDecomp_mem_outside h (hl.input_outside_output hj)⟩

/-! ## The host's access to one cell -/

/-- R192: a host write below `2^AW` goes on, in a new draw. -/
theorem hostStep_writeMem {a : Nat} (ha : a < Config.space) (b : Byte) (s : State) :
    hostStep (.writeMem a b) s = .next (s.nextDraw.setMem (Memory.write s.mem a b)) :=
  if_pos ((Laws.inSpace_iff _).2 ha)

/-- R192: a host read below `2^AW` goes on, with the byte as a new draw has it. -/
theorem hostStep_readMem {a : Nat} (ha : a < Config.space) (s : State) :
    hostStep (.readMem a) s = .next (s.nextDraw.answer (s.nextDraw.byteAt a).toNat) :=
  if_pos ((Laws.inSpace_iff _).2 ha)

@[simp] theorem State.content_nextDraw (r : Reg) : s.nextDraw.content r = s.content r := by cases r <;> rfl

@[simp] theorem State.content_answer (v : Nat) (r : Reg) : (s.answer v).content r = s.content r := by cases r <;> rfl

@[simp] theorem State.content_setMem (m : Memory) (r : Reg) : (s.setMem m).content r = s.content r := by cases r <;> rfl

/-- R12, R62: the one cell apart, a host write changes nothing. -/
theorem frame_nextDraw_writeMem (s : State) (a : Nat) (b : Byte) :
    Frame s (s.nextDraw.setMem (Memory.write s.mem a b)) [] (bytesAt a 1) where
  regs_same := fun r _ => by rw [State.content_setMem, State.content_nextDraw]
  mem_same := fun x hx => Memory.read_write_other s.mem b fun e => hx ⟨by omega, by omega⟩

/-- R12: an answer to the host changes no register and no byte. -/
theorem frame_nextDraw_answer (s : State) (v : Nat) : Frame s (s.nextDraw.answer v) [] noBytes where
  regs_same := fun r _ => by rw [State.content_answer, State.content_nextDraw]
  mem_same := fun _ _ => rfl

/-- Settles O50: the write lists the cell, and a read answers a listed cell's byte whatever the draw. -/
theorem hostMemoryAccess : Obligations.HostMemoryAccess := by
  constructor
  · intro s a b ha
    have hcell : Memory.read (Memory.write s.mem a b) a = some b := Memory.read_write_same s.mem a b
    refine ⟨_, _, hostStep_writeMem ha b s, hostStep_readMem ha _, ?_, hcell,
      frame_nextDraw_writeMem s a b, frame_nextDraw_answer _ _, rfl, rfl⟩
    rw [State.byteAt_written hcell]
    rfl
  · intro s a ha
    refine ⟨_, _, hostStep_readMem ha s, rfl, (s.nextDraw.byteAt a).isLt, fun b hb => ?_,
      frame_nextDraw_answer s _, rfl, rfl⟩
    rw [State.byteAt_written (s := s.nextDraw) hb]

end Sys2Proof.Machine
end

section
/-! PROOFS. The encodings of R90: the fields of a word and of a byte, then one lemma per decoder that says what it
answers in terms of the encoder (both halves of the round trip at once), and the tokens of a stream. -/

namespace Sys2Proof

open Machine

/-! ## Fields of words and bytes -/

@[simp] theorem highByte_wordOf (hi lo : Byte) : highByte (wordOf hi lo) = hi := BitVec.extractLsb'_append_eq_left

@[simp] theorem lowByte_wordOf (hi lo : Byte) : lowByte (wordOf hi lo) = lo := BitVec.extractLsb'_append_eq_right

@[simp] theorem wordOf_highByte_lowByte (v : Word) : wordOf (highByte v) (lowByte v) = v :=
  (BitVec.extractLsb'_append_extractLsb'_eq_extractLsb' rfl).trans BitVec.extractLsb'_eq_self

@[simp] theorem highNibble_runByte (count index : BitVec 4) : highNibble (runByte count index) = count :=
  BitVec.extractLsb'_append_eq_left

@[simp] theorem lowNibble_runByte (count index : BitVec 4) : lowNibble (runByte count index) = index :=
  BitVec.extractLsb'_append_eq_right

@[simp] theorem runByte_highNibble_lowNibble (b : Byte) : runByte (highNibble b) (lowNibble b) = b :=
  (BitVec.extractLsb'_append_extractLsb'_eq_extractLsb' rfl).trans BitVec.extractLsb'_eq_self

/-- R97: the second byte of a RUN is `0x00` exactly where both nibbles are 0. -/
theorem runByte_eq_zero_iff {count index : BitVec 4} : runByte count index = 0x00#8 ↔ count = 0#4 ∧ index = 0#4 := by
  constructor
  · intro h
    exact ⟨by rw [← highNibble_runByte count index, h]; rfl, by rw [← lowNibble_runByte count index, h]; rfl⟩
  · rintro ⟨rfl, rfl⟩
    rfl

@[simp] theorem flagComp_flagsByte (c e k : Bool) (u : BitVec 5) : flagComp (flagsByte c e k u) = c := by
  revert c e k u; decide

@[simp] theorem flagEnc_flagsByte (c e k : Bool) (u : BitVec 5) : flagEnc (flagsByte c e k u) = e := by
  revert c e k u; decide

@[simp] theorem flagCsum_flagsByte (c e k : Bool) (u : BitVec 5) : flagCsum (flagsByte c e k u) = k := by
  revert c e k u; decide

@[simp] theorem flagUnused_flagsByte (c e k : Bool) (u : BitVec 5) : flagUnused (flagsByte c e k u) = u :=
  BitVec.extractLsb'_append_eq_right

/-- R94: the flags byte has no bit beyond its four fields. -/
@[simp] theorem flagsByte_of_flags (f : Byte) :
    flagsByte (flagComp f) (flagEnc f) (flagCsum f) (flagUnused f) = f := by
  revert f; decide

/-- R27: sixteen entries at the front of a list, read one by one, are the file they came from. -/
theorem table16_getD_toList_append (d : Vector Byte 16) (bs : List Byte) :
    table16 (fun i => (d.toList ++ bs).getD i 0#8) = d := by
  refine Vector.ext fun i hi => ?_
  rw [table16_getElem _ _ hi, List.getD_append _ _ _ _ (by simpa using hi), List.getD_eq_getElem _ _ (by simpa using hi),
    Vector.getElem_toList]

/-- R27: a file read off the front of a list holds the first sixteen bytes. -/
theorem toList_table16_getD {bs : List Byte} (h : 16 ≤ bs.length) :
    (table16 fun i => bs.getD i 0#8).toList = bs.take 16 := by
  refine List.ext_getElem (by simpa using h) fun i hi _ => ?_
  have hi16 : i < 16 := by simpa using hi
  rw [Vector.getElem_toList, table16_getElem _ _ hi16, List.getElem_take, List.getD_eq_getElem _ _ (by omega)]

/-! ## Command codes -/

/-- R96: a command code stands in the low three bits of its one byte. -/
theorem encode_decodeCommand (c : BitVec 3) : encode (decodeCommand c) = [c.setWidth 8] := by
  revert c; decide

/-- R96, R102: the rows of the command encoding are those the codes name, and no other. -/
theorem space_eq_command_iff {i : Instr} : i.space = .command ↔ ∃ c, decodeCommand c = i := by
  constructor
  · intro h
    cases i with
    | reserved000 => exact ⟨0#3, rfl⟩
    | parse => exact ⟨1#3, rfl⟩
    | cksum => exact ⟨2#3, rfl⟩
    | step => exact ⟨3#3, rfl⟩
    | decrypt => exact ⟨4#3, rfl⟩
    | decomp => exact ⟨5#3, rfl⟩
    | reserved110 => exact ⟨6#3, rfl⟩
    | reserved111 => exact ⟨7#3, rfl⟩
    | lit | esclit | run | esceof | header => cases h
  · rintro ⟨c, rfl⟩
    revert c; decide

/-- R96: what the command decoder answers is the row of a code, and its bytes are those read. -/
theorem decode_command_eq_ok_iff {bs rest : List Byte} {i : Instr} :
    decode .command bs = .ok (i, rest) ↔ i.space = .command ∧ encode i ++ rest = bs := by
  constructor
  · intro h
    cases bs with
    | nil => cases h
    | cons b bs =>
      simp only [decode] at h
      split at h
      · next hb =>
        cases h
        refine ⟨space_eq_command_iff.2 ⟨_, rfl⟩, ?_⟩
        have hback : (b.setWidth 3).setWidth 8 = b := by bv_omega
        rw [encode_decodeCommand, hback, List.singleton_append]
      · cases h
  · rintro ⟨hspace, rfl⟩
    obtain ⟨c, rfl⟩ := space_eq_command_iff.1 hspace
    have hlt : (c.setWidth 8).toNat < 8 := by bv_omega
    have hback : (c.setWidth 8).setWidth 3 = c := by bv_omega
    rw [encode_decodeCommand, List.singleton_append, decode, if_pos hlt, hback]

/-! ## Stream tokens -/

/-- R90: the rows of the stream encoding are the tokens. -/
theorem space_eq_stream_iff {i : Instr} : i.space = .stream ↔ ∃ tok : Token, tok.toInstr = i := by
  constructor
  · intro h
    cases i with
    | lit b => exact ⟨.lit b, rfl⟩
    | esclit => exact ⟨.esclit, rfl⟩
    | run count index => exact ⟨.run count index, rfl⟩
    | esceof => exact ⟨.esceof, rfl⟩
    | parse | cksum | step | decrypt | decomp | reserved000 | reserved110 | reserved111 | header => cases h
  · rintro ⟨tok, rfl⟩
    cases tok <;> rfl

/-- R97: no token is empty. -/
theorem encode_token_ne_nil (tok : Token) : encode tok.toInstr ≠ [] := by
  cases tok <;> exact List.cons_ne_nil _ _

theorem tokenUsed_pos (tok : Token) : 0 < tokenUsed tok := by
  cases tok <;> exact Nat.succ_pos _

theorem Token.toInstr_eq_esceof_iff {tok : Token} : tok.toInstr = .esceof ↔ tok = .esceof := by
  cases tok <;> simp [Token.toInstr]

theorem Token.lit_wf_iff {b : Byte} : (Token.lit b).toInstr.wf = true ↔ b ≠ 0x07#8 := bne_iff_ne

/-- R97: a RUN is well-formed where its second byte is not `0x00`. -/
theorem Token.run_wf_iff {count index : BitVec 4} :
    (Token.run count index).toInstr.wf = true ↔ runByte count index ≠ 0x00#8 := by
  simp [Token.toInstr, Instr.wf, runByte_eq_zero_iff, imp_iff_not_or]

/-! R98, one equation for each shape of the front of the stream. -/

theorem decodeToken_lit {b : Byte} (hb : b ≠ 0x07#8) (rest : List Byte) :
    decodeToken (b :: rest) = some (.lit b, rest) := if_neg hb

theorem decodeToken_esclit (rest : List Byte) : decodeToken (0x07#8 :: 0x00#8 :: rest) = some (.esclit, rest) := rfl

theorem decodeToken_run {B : Byte} (hB : B ≠ 0x00#8) (rest : List Byte) :
    decodeToken (0x07#8 :: B :: rest) = some (.run (highNibble B) (lowNibble B), rest) := if_neg hB

theorem decodeToken_esceof : decodeToken [0x07#8] = some (.esceof, []) := rfl

/-- R97, R98: a well-formed token is read back from its bytes; ESCEOF only where nothing is behind it. -/
theorem decodeToken_encode {tok : Token} {rest : List Byte} (hwf : tok.toInstr.wf = true)
    (hend : tok = .esceof → rest = []) : decodeToken (encode tok.toInstr ++ rest) = some (tok, rest) := by
  cases tok with
  | lit b => exact decodeToken_lit (Token.lit_wf_iff.1 hwf) rest
  | esclit => exact decodeToken_esclit rest
  | run count index =>
    have h := decodeToken_run (Token.run_wf_iff.1 hwf) rest
    rwa [highNibble_runByte, lowNibble_runByte] at h
  | esceof =>
    rw [hend rfl]
    exact decodeToken_esceof

/-- R97, R98: what the token decoder answers is well-formed, and its bytes are those read. -/
theorem decodeToken_sound {tok : Token} {bs rest : List Byte} (h : decodeToken bs = some (tok, rest)) :
    tok.toInstr.wf = true ∧ encode tok.toInstr ++ rest = bs ∧ (tok = .esceof → rest = []) := by
  cases bs with
  | nil => cases h
  | cons b bs =>
    by_cases hb : b = 0x07#8
    · subst hb
      cases bs with
      | nil =>
        rw [decodeToken_esceof] at h
        cases h
        exact ⟨rfl, rfl, fun _ => rfl⟩
      | cons B bs =>
        by_cases hB : B = 0x00#8
        · subst hB
          rw [decodeToken_esclit] at h
          cases h
          exact ⟨rfl, rfl, nofun⟩
        · rw [decodeToken_run hB] at h
          cases h
          refine ⟨Token.run_wf_iff.2 ?_, ?_, nofun⟩
          · rwa [runByte_highNibble_lowNibble]
          · simp [Token.toInstr, encode]
    · rw [decodeToken_lit hb] at h
      cases h
      exact ⟨Token.lit_wf_iff.2 hb, rfl, nofun⟩

theorem decodeToken_eq_some_iff {tok : Token} {bs rest : List Byte} :
    decodeToken bs = some (tok, rest) ↔
      tok.toInstr.wf = true ∧ encode tok.toInstr ++ rest = bs ∧ (tok = .esceof → rest = []) := by
  constructor
  · exact decodeToken_sound
  · rintro ⟨hwf, rfl, hend⟩
    exact decodeToken_encode hwf hend

theorem decode_stream_eq_ok_iff {bs rest : List Byte} {i : Instr} :
    decode .stream bs = .ok (i, rest) ↔
      ∃ tok : Token, tok.toInstr = i ∧ decodeToken bs = some (tok, rest) := by
  simp only [decode]
  cases decodeToken bs with
  | none => simp
  | some p => simp [Prod.ext_iff]

/-! ## The header -/

/-- R125: the dictionary field is taken if the flag asks for it, and its bytes are those read. -/
theorem takeDict_eq_some_iff {c : Bool} {bs rest : List Byte} {d : Option (Vector Byte 16)} :
    takeDict c bs = some (d, rest) ↔ d.isSome = c ∧ encodeDict d ++ rest = bs := by
  constructor
  · intro h
    cases c with
    | false =>
      cases h
      exact ⟨rfl, rfl⟩
    | true =>
      simp only [takeDict, if_true] at h
      split at h
      · cases h
      · next hlen =>
        cases h
        refine ⟨rfl, ?_⟩
        rw [encodeDict, toList_table16_getD (by omega), List.take_append_drop]
  · rintro ⟨rfl, rfl⟩
    cases d with
    | none => rfl
    | some d =>
      have hlen : ¬ (d.toList ++ rest).length < 16 := by simp
      have hdrop : (d.toList ++ rest).drop 16 = rest := List.drop_left' (by simp)
      simp only [takeDict, encodeDict, Option.isSome_some, if_true, if_neg hlen, hdrop, table16_getD_toList_append]

/-- R126: the checksum field is taken if the flag asks for it, and its bytes are those read. -/
theorem takeCksum_eq_some_iff {k : Bool} {bs rest : List Byte} {v : Option Word} :
    takeCksum k bs = some (v, rest) ↔ v.isSome = k ∧ encodeCksum v ++ rest = bs := by
  constructor
  · intro h
    cases k with
    | false =>
      cases h
      exact ⟨rfl, rfl⟩
    | true =>
      simp only [takeCksum, if_true] at h
      split at h
      · cases h
        exact ⟨rfl, by simp [encodeCksum]⟩
      · cases h
  · rintro ⟨rfl, rfl⟩
    cases v <;> simp [takeCksum, encodeCksum]

/-- R91, R121 to R127: the header decoder accepts exactly the bytes of a header with the payload behind them. -/
theorem decodeHeader_eq_ok_iff {bs rest : List Byte} {h : Header} :
    decodeHeader bs = .ok (h, rest) ↔ encodeHeader h ++ rest = bs := by
  constructor
  · intro hdec
    unfold decodeHeader at hdec
    split at hdec
    · next m0 m1 v f tail =>
      split_ifs at hdec with hmagic hversion
      obtain ⟨rfl, rfl⟩ := hmagic
      subst hversion
      split at hdec
      · cases hdec
      · next d tail' hdict =>
        split at hdec
        · cases hdec
        · next k payload hcksum =>
          cases hdec
          obtain ⟨hcomp, rfl⟩ := takeDict_eq_some_iff.1 hdict
          obtain ⟨hcsum, rfl⟩ := takeCksum_eq_some_iff.1 hcksum
          simp only [encodeHeader, Header.comp, Header.csum, hcomp, hcsum, flagsByte_of_flags, List.cons_append,
            List.append_assoc]
    · cases hdec
  · rintro rfl
    have hdict : takeDict h.comp (encodeDict h.dict ++ (encodeCksum h.cksum ++ rest)) = some (h.dict, _) :=
      takeDict_eq_some_iff.2 ⟨rfl, rfl⟩
    have hcksum : takeCksum h.csum (encodeCksum h.cksum ++ rest) = some (h.cksum, rest) :=
      takeCksum_eq_some_iff.2 ⟨rfl, rfl⟩
    simp [decodeHeader, encodeHeader, hdict, hcksum]

/-! ## All three as one decoder -/

/-- R90: the rows of the header format. -/
theorem space_eq_header_iff {i : Instr} : i.space = .header ↔ ∃ h, Instr.header h = i := by
  constructor
  · intro hi
    cases i with
    | header h => exact ⟨h, rfl⟩
    | parse | cksum | step | decrypt | decomp | reserved000 | reserved110 | reserved111 => cases hi
    | lit | esclit | run | esceof => cases hi
  · rintro ⟨h, rfl⟩
    rfl

theorem decode_header_eq_ok_iff {bs rest : List Byte} {i : Instr} :
    decode .header bs = .ok (i, rest) ↔ ∃ h, Instr.header h = i ∧ decodeHeader bs = .ok (h, rest) := by
  simp only [decode]
  cases decodeHeader bs with
  | error cause => simp
  | ok p => simp [Prod.ext_iff]

/-- R97: the constraints are on tokens alone. -/
theorem wf_of_space_ne_stream {i : Instr} (h : i.space ≠ .stream) : i.wf = true := by
  cases i with
  | lit | esclit | run | esceof => exact absurd rfl h
  | parse | cksum | step | decrypt | decomp | reserved000 | reserved110 | reserved111 | header => rfl

/-- R90 to R98: decoding and encoding undo each other, in each of the three encodings. -/
theorem decode_eq_ok_iff {sp : Space} {bs rest : List Byte} {i : Instr} :
    decode sp bs = .ok (i, rest) ↔
      i.wf = true ∧ i.space = sp ∧ encode i ++ rest = bs ∧ (i = .esceof → rest = []) := by
  cases sp with
  | command =>
    rw [decode_command_eq_ok_iff]
    constructor
    · rintro ⟨hspace, hbytes⟩
      exact ⟨wf_of_space_ne_stream (by simp [hspace]), hspace, hbytes, by rintro rfl; cases hspace⟩
    · rintro ⟨-, hspace, hbytes, -⟩
      exact ⟨hspace, hbytes⟩
  | stream =>
    rw [decode_stream_eq_ok_iff]
    constructor
    · rintro ⟨tok, rfl, hdec⟩
      obtain ⟨hwf, hbytes, hend⟩ := decodeToken_sound hdec
      exact ⟨hwf, space_eq_stream_iff.2 ⟨tok, rfl⟩, hbytes, fun e => hend (Token.toInstr_eq_esceof_iff.1 e)⟩
    · rintro ⟨hwf, hspace, rfl, hend⟩
      obtain ⟨tok, rfl⟩ := space_eq_stream_iff.1 hspace
      exact ⟨tok, rfl, decodeToken_encode hwf fun e => hend (Token.toInstr_eq_esceof_iff.2 e)⟩
  | header =>
    rw [decode_header_eq_ok_iff]
    constructor
    · rintro ⟨h, rfl, hdec⟩
      exact ⟨rfl, rfl, decodeHeader_eq_ok_iff.1 hdec, nofun⟩
    · rintro ⟨-, hspace, hbytes, -⟩
      obtain ⟨h, rfl⟩ := space_eq_header_iff.1 hspace
      exact ⟨h, rfl, decodeHeader_eq_ok_iff.2 hbytes⟩

/-- Settles O38: the bytes of a well-formed instruction are what `decode_eq_ok_iff` asks of those read. -/
theorem decodeEncodeAgree : Obligations.DecodeEncodeAgree := fun _ _ hwf hend =>
  decode_eq_ok_iff.2 ⟨hwf, rfl, rfl, hend⟩

/-- Settles O39: the other half of `decode_eq_ok_iff`. -/
theorem encodeDecodeAgree : Obligations.EncodeDecodeAgree := fun _ _ _ _ hdec => decode_eq_ok_iff.1 hdec

/-- Settles O41: each word is the encoding of the row it stands for, with nothing behind it but the `0x07` behind the
first literal. -/
theorem specWordsDecode : Obligations.SpecWordsDecode :=
  ⟨rfl, rfl, rfl, rfl, rfl,
    decodeEncodeAgree (.lit 0x41#8) [0x07#8] rfl nofun,
    decodeEncodeAgree .esclit [] rfl nofun,
    decodeEncodeAgree (.run 15#4 2#4) [] rfl nofun,
    decodeEncodeAgree .esceof [] rfl fun _ => rfl,
    decodeEncodeAgree (.header ⟨false, 0#5, none, some 0xABCD#16⟩) [] rfl nofun⟩

/-! ## The tokens of a stream -/

/-- R97, R98: the tokens of a legal stream: each well-formed, and ESCEOF the last one at most. -/
def LegalTokens (ts : List Token) : Prop :=
  (∀ t ∈ ts, t.toInstr.wf = true) ∧ ∀ t ∈ ts.dropLast, t ≠ .esceof

/-- The bytes of a token sequence. -/
def tokensBytes (ts : List Token) : List Byte := ts.flatMap fun t => encode t.toInstr

theorem legalTokens_nil : LegalTokens [] := ⟨nofun, nofun⟩

theorem legalTokens_cons_iff {tok : Token} {ts : List Token} :
    LegalTokens (tok :: ts) ↔ tok.toInstr.wf = true ∧ (tok = .esceof → ts = []) ∧ LegalTokens ts := by
  cases ts with
  | nil => simp [LegalTokens]
  | cons t ts =>
    simp only [LegalTokens, List.dropLast_cons_cons, List.forall_mem_cons, reduceCtorEq, imp_false]
    tauto

theorem tokensBytes_cons (tok : Token) (ts : List Token) :
    tokensBytes (tok :: ts) = encode tok.toInstr ++ tokensBytes ts := rfl

theorem tokensBytes_eq_nil_iff {ts : List Token} : tokensBytes ts = [] ↔ ts = [] := by
  cases ts with
  | nil => exact iff_of_true rfl rfl
  | cons tok ts => simp [tokensBytes_cons, encode_token_ne_nil]

/-- R98: the first token of a legal sequence is the one the decoder reads, and the others' bytes are its rest. -/
theorem legalTokens_cons_and_bytes_iff {tok : Token} {ts : List Token} {bs : List Byte} :
    LegalTokens (tok :: ts) ∧ tokensBytes (tok :: ts) = bs ↔
      decodeToken bs = some (tok, tokensBytes ts) ∧ LegalTokens ts := by
  rw [decodeToken_eq_some_iff, legalTokens_cons_iff, tokensBytes_cons, tokensBytes_eq_nil_iff]
  tauto

/-- R100: by induction on the bytes left. The decoder fixes the first token and the bytes behind it, and those are
fewer. -/
theorem existsUnique_legalTokens (bs : List Byte) : ∃! ts, LegalTokens ts ∧ tokensBytes ts = bs := by
  by_cases hbs : bs = []
  · subst hbs
    exact ⟨[], ⟨legalTokens_nil, rfl⟩, fun ts hts => tokensBytes_eq_nil_iff.1 hts.2⟩
  · obtain ⟨tok, rest, hdec, hlength⟩ := decodeToken_some hbs
    have hused : 0 < tokenUsed tok := tokenUsed_pos tok
    have hshorter : rest.length < bs.length := by omega
    obtain ⟨ts, ⟨hlegal, hrest⟩, hunique⟩ := existsUnique_legalTokens rest
    refine ⟨tok :: ts, legalTokens_cons_and_bytes_iff.2 ⟨by rw [hdec, hrest], hlegal⟩, ?_⟩
    rintro ts' ⟨hlegal', hbytes'⟩
    cases ts' with
    | nil => exact absurd hbytes'.symm hbs
    | cons tok' ts' =>
      obtain ⟨hdec', htail⟩ := legalTokens_cons_and_bytes_iff.1 ⟨hlegal', hbytes'⟩
      cases hdec.symm.trans hdec'
      rw [hunique ts' ⟨htail, rfl⟩]
termination_by bs.length

/-- Settles O40: the unique legal sequence of `existsUnique_legalTokens`, its two conditions side by side. -/
theorem streamHasOneTokenization : Obligations.StreamHasOneTokenization := by
  intro bs
  obtain ⟨ts, ⟨⟨hwf, hlast⟩, hbytes⟩, hunique⟩ := existsUnique_legalTokens bs
  exact ⟨ts, ⟨hwf, hlast, hbytes⟩, fun ts' ⟨hwf', hlast', hbytes'⟩ => hunique ts' ⟨⟨hwf', hlast'⟩, hbytes'⟩⟩

end Sys2Proof

namespace Sys2Proof.Machine

/-! ## Reserved codes -/

/-- R193: a step in which the host issues a code runs the row of that code, in a new draw. -/
theorem hostStep_issue (c : BitVec 3) (s : State) : hostStep (.issue c) s = exec (decodeCommand c) s.nextDraw :=
  hostAct_issue c s.nextDraw

/-- R102: the rows of the reserved codes are refused. -/
theorem exec_reserved (s : State) : exec .reserved000 s = .refused (.reservedCommand 0#3) ∧
    exec .reserved110 s = .refused (.reservedCommand 6#3) ∧
    exec .reserved111 s = .refused (.reservedCommand 7#3) := ⟨rfl, rfl, rfl⟩

/-- Settles O30: the codes 0, 6 and 7 decode to the reserved rows, so their issue is refused as the rows are. -/
theorem reservedRefused : Obligations.ReservedRefused := by
  intro s
  obtain ⟨h000, h110, h111⟩ := exec_reserved s
  obtain ⟨hnext000, hnext110, hnext111⟩ := exec_reserved s.nextDraw
  exact ⟨h000, h110, h111, (hostStep_issue 0#3 s).trans hnext000, (hostStep_issue 6#3 s).trans hnext110,
    (hostStep_issue 7#3 s).trans hnext111⟩

end Sys2Proof.Machine
end

section
/-! PROOFS. The header decoder on the bytes of the input region (`spec/40_header.md` R121 to R130): one equation
for each outcome of its checks, what either end of PARSE leaves behind, and the six outcomes of PARSE. -/

namespace Sys2Proof

/-! ## The checks of the decoder, one equation each -/

theorem decodeHeader_tooShort {bs : List Byte} (h : bs.length < 4) : decodeHeader bs = .error .tooShort := by
  match bs, h with
  | [], _ | [_], _ | [_, _], _ | [_, _, _], _ => rfl

theorem decodeHeader_badMagic {m0 m1 : Byte} (h : m0 ≠ 0x02#8 ∨ m1 ≠ 0x13#8) (v f : Byte) (rest : List Byte) :
    decodeHeader (m0 :: m1 :: v :: f :: rest) = .error .badMagic := if_neg (not_and_or.2 h)

theorem decodeHeader_badVersion {v : Byte} (h : v ≠ 0x01#8) (f : Byte) (rest : List Byte) :
    decodeHeader (0x02#8 :: 0x13#8 :: v :: f :: rest) = .error .badVersion := if_neg h

theorem decodeHeader_dictTruncated {f : Byte} {rest : List Byte} (h : takeDict (flagComp f) rest = none) :
    decodeHeader (0x02#8 :: 0x13#8 :: 0x01#8 :: f :: rest) = .error .dictTruncated := by
  simp [decodeHeader, h]

theorem decodeHeader_cksumTruncated {f : Byte} {rest tail : List Byte} {d : Option (Vector Byte 16)}
    (hdict : takeDict (flagComp f) rest = some (d, tail)) (hcksum : takeCksum (flagCsum f) tail = none) :
    decodeHeader (0x02#8 :: 0x13#8 :: 0x01#8 :: f :: rest) = .error .cksumTruncated := by
  simp [decodeHeader, hdict, hcksum]

theorem decodeHeader_accepts {f : Byte} {rest tail payload : List Byte} {d : Option (Vector Byte 16)}
    {k : Option Word} (hdict : takeDict (flagComp f) rest = some (d, tail))
    (hcksum : takeCksum (flagCsum f) tail = some (k, payload)) :
    decodeHeader (0x02#8 :: 0x13#8 :: 0x01#8 :: f :: rest) = .ok (⟨flagEnc f, flagUnused f, d, k⟩, payload) := by
  simp [decodeHeader, hdict, hcksum]

/-! ## Fields -/

theorem takeDict_truncated {bs : List Byte} (h : bs.length < 16) : takeDict true bs = none := if_pos h

theorem takeCksum_truncated {bs : List Byte} (h : bs.length < 2) : takeCksum true bs = none := by
  match bs, h with
  | [], _ | [_], _ => rfl

/-- R15: a 16-bit field is its two bytes, the high byte first. -/
theorem toNat_wordOf (hi lo : Byte) : (wordOf hi lo).toNat = hi.toNat * 256 + lo.toNat := by
  rw [wordOf, BitVec.toNat_append, ← Nat.shiftLeft_add_eq_or_of_lt lo.isLt, Nat.shiftLeft_eq]

end Sys2Proof

namespace Sys2Proof.Machine

variable {s : State}

/-! ## The bytes of the input region -/

theorem State.inBytes_succ (i n : Nat) : s.inBytes i (n + 1) = s.inByte i :: s.inBytes (i + 1) n := by
  simp [State.inBytes, List.range_succ_eq_map, Nat.add_right_comm, Nat.add_assoc]

theorem State.drop_inBytes (i n k : Nat) : (s.inBytes i n).drop k = s.inBytes (i + k) (n - k) :=
  List.ext_getElem (by simp) fun j _ _ => by simp [Nat.add_assoc]

/-- R121: four header bytes, and the field bytes of which PARSE reads 18 at most. -/
theorem State.headerBytes_eq_cons (h : 4 ≤ s.lenOp) :
    s.headerBytes = s.inByte 0 :: s.inByte 1 :: s.inByte 2 :: s.inByte 3 :: s.inBytes 4 (min s.lenOp 22 - 4) := by
  obtain ⟨n, hn⟩ : ∃ n, min s.lenOp 22 = n + 4 := ⟨min s.lenOp 22 - 4, by omega⟩
  simp only [State.headerBytes, hn, State.inBytes_succ, Nat.add_sub_cancel, Nat.zero_add, Nat.reduceAdd]

theorem State.length_headerBytes : s.headerBytes.length = min s.lenOp 22 := State.length_inBytes _ _

/-- R125: the dictionary field at `in[i]`, if the flag announces it. -/
def State.dictField (s : State) (c : Bool) (i : Nat) : Option (Vector Byte 16) :=
  if c then some (table16 fun j => s.inByte (i + j)) else none

/-- R126: the checksum field at `in[i]`, if the flag announces it. -/
def State.cksumField (s : State) (k : Bool) (i : Nat) : Option Word :=
  if k then some (wordOf (s.inByte i) (s.inByte (i + 1))) else none

@[simp] theorem State.isSome_dictField (c : Bool) (i : Nat) : (s.dictField c i).isSome = c := by
  cases c <;> rfl

@[simp] theorem State.isSome_cksumField (k : Bool) (i : Nat) : (s.cksumField k i).isSome = k := by
  cases k <;> rfl

/-- R125 where the dictionary is complete or not announced. -/
theorem takeDict_inBytes {c : Bool} {i n : Nat} (h : 16 * c.toNat ≤ n) :
    takeDict c (s.inBytes i n) = some (s.dictField c i, s.inBytes (i + 16 * c.toNat) (n - 16 * c.toNat)) := by
  cases c with
  | false => rfl
  | true =>
    have h16 : 16 ≤ n := h
    have hlen : ¬ (s.inBytes i n).length < 16 := by rw [State.length_inBytes]; omega
    have hdict : (table16 fun j => (s.inBytes i n).getD j 0#8) = table16 fun j => s.inByte (i + j) :=
      Vector.ext fun j hj => by
        have hjn : j < (s.inBytes i n).length := by omega
        rw [table16_getElem _ _ hj, table16_getElem _ _ hj, List.getD_eq_getElem _ _ hjn, State.getElem_inBytes]
    simp only [takeDict, if_true, if_neg hlen, hdict, State.drop_inBytes, State.dictField, Bool.toNat_true, mul_one]

/-- R126 where the checksum is complete or not announced. -/
theorem takeCksum_inBytes {k : Bool} {i n : Nat} (h : 2 * k.toNat ≤ n) :
    takeCksum k (s.inBytes i n) = some (s.cksumField k i, s.inBytes (i + 2 * k.toNat) (n - 2 * k.toNat)) := by
  cases k with
  | false => rfl
  | true =>
    obtain ⟨n, rfl⟩ : ∃ m, n = m + 2 := ⟨n - 2, (Nat.sub_add_cancel h).symm⟩
    simp [takeCksum, State.cksumField, State.inBytes_succ]

/-! ## The two ends of a PARSE -/

/-- PARSE ends in a rejection where the decoder does (R129, R130). -/
theorem execParse_of_error {cause : HeaderReject} (hin : s.InputInRange)
    (hdec : decodeHeader s.headerBytes = .error cause) : execParse s = .next (s.reject cause.code) := by
  rw [execParse_runs hin, hdec]

/-- PARSE accepts the header the decoder answers (R127, R129). -/
theorem execParse_of_ok {h : Header} {payload : List Byte} (hin : s.InputInRange)
    (hdec : decodeHeader s.headerBytes = .ok (h, payload)) : execParse s = .next (s.accept h) := by
  rw [execParse_runs hin, hdec]

theorem dict_mem_recordRegs (i : BitVec 4) : Reg.dict i ∈ recordRegs := by
  revert i; decide

/-- R12, R29: a new record changes the registers of the record, CKMATCH and no byte of MEM. -/
theorem frame_setRecord (s : State) (r : Record) : Frame s (s.setRecord r) recordRegs noBytes where
  regs_same := fun reg hreg => by
    cases reg with
    | valid | comp | enc | csum | ckval | hlen | rej | ckmatch => exact absurd (by decide) hreg
    | dict i => exact absurd (dict_mem_recordRegs i) hreg
    | cmd | key | lfsr | sum | src | len | dst | cap | rlen => rfl
  mem_same := fun _ _ => rfl

/-- A new record leaves the host port and the cursors. -/
theorem quiet_setRecord (s : State) (r : Record) : Quiet s (s.setRecord r) := ⟨⟨rfl, rfl, rfl⟩, rfl⟩

/-- R130: the entries of a DICT without a dictionary are `unspecified`. -/
theorem State.freeDict_getElem_known (s : State) (i : BitVec 4) : (s.freeDict[i.toNat]'i.isLt).known = false := by
  rw [State.freeDict, table16_getElem _ _ i.isLt, Held.unspecified_known]

/-- R130: `reject` leaves the state after a rejection. -/
theorem rejectedTo_reject (s : State) (cause : BitVec 3) : RejectedTo s (s.reject cause) cause where
  valid := rfl
  rej := rfl
  others := fun reg hreg => by
    simp only [List.mem_cons, List.not_mem_nil, or_false] at hreg
    obtain rfl | rfl | rfl | rfl | rfl := hreg <;> rfl
  dict := s.freeDict_getElem_known
  frame := frame_setRecord s _
  quiet := quiet_setRecord s _

/-- PARSE of bytes the decoder rejects ends in the state after a rejection with that cause. -/
theorem exec_parse_rejects {cause : HeaderReject} (hin : s.InputInRange)
    (hdec : decodeHeader s.headerBytes = .error cause) :
    ∃ t, exec .parse s = .next t ∧ RejectedTo s t cause.code :=
  ⟨s.reject cause.code, execParse_of_error hin hdec, rejectedTo_reject s cause.code⟩

/-! What the record holds after an acceptance (R127). -/

theorem State.accept_content_comp (h : Header) : (s.accept h).content .comp = (h.comp.toNat, true) := rfl

theorem State.accept_content_csum (h : Header) : (s.accept h).content .csum = (h.csum.toNat, true) := rfl

theorem State.accept_content_hlen (h : Header) :
    (s.accept h).content .hlen = (4 + 16 * h.comp.toNat + 2 * h.csum.toNat, true) := rfl

theorem State.accept_content_dict {h : Header} {d : Vector Byte 16} (hd : h.dict = some d) (i : BitVec 4) :
    (s.accept h).content (.dict i) = ((d[i.toNat]'i.isLt).toNat, true) := by
  have hentry : d.toList.getD i.toNat 0#8 = d[i.toNat]'i.isLt := by
    rw [List.getD_eq_getElem _ _ (by rw [Vector.length_toList]; exact i.isLt), Vector.getElem_toList]
  simp only [State.content, State.dictEntry, State.accept, State.setRecord_dict, State.accepted, hd,
    table16_getElem _ _ i.isLt, Held.put_val, Held.put_known, hentry]

theorem State.accept_dict_unspecified {h : Header} (hd : h.dict = none) (i : BitVec 4) :
    (s.accept h).isUnspecified (.dict i) := by
  have hdict : (s.accept h).dict = s.freeDict := by simp only [State.accept, State.setRecord_dict, State.accepted, hd]
  simp only [State.isUnspecified, State.content, State.dictEntry, hdict, State.freeDict_getElem_known]

theorem State.accept_content_ckval {h : Header} {k : Word} (hk : h.cksum = some k) :
    (s.accept h).content .ckval = (k.toNat, true) := by
  simp [State.content, State.accept, State.accepted, hk]

theorem State.accept_ckval_unspecified {h : Header} (hk : h.cksum = none) : (s.accept h).isUnspecified .ckval := by
  simp [State.isUnspecified, State.content, State.accept, State.accepted, hk]

/-! ## Rejections -/

/-- R121: the length check alone decides, before any byte is looked at. -/
theorem execParse_tooShort (hin : s.InputInRange) (hlen : s.lenOp < 4) : execParse s = .next (s.reject 1#3) :=
  execParse_of_error (cause := .tooShort) hin
    (decodeHeader_tooShort (by rw [State.length_headerBytes]; omega))

/-- Settles O1: with any other memory LEN is the same, so the same check fails. -/
theorem parseTooShort : Obligations.ParseTooShort := by
  intro s hin hlen
  exact ⟨s.reject 1#3, execParse_tooShort hin hlen, rejectedTo_reject s 1#3, fun m =>
    execParse_tooShort (s := s.setMem m) ((sameRegions_setMem m).inputInRange_iff.2 hin) hlen⟩

/-- Settles O2: the second check of the decoder. -/
theorem parseBadMagic : Obligations.ParseBadMagic := by
  intro s hin hlen hmagic
  refine exec_parse_rejects (cause := .badMagic) hin ?_
  rw [State.headerBytes_eq_cons hlen]
  exact decodeHeader_badMagic hmagic _ _ _

/-- Settles O3: the third check of the decoder. -/
theorem parseBadVersion : Obligations.ParseBadVersion := by
  intro s hin hlen h0 h1 hversion
  refine exec_parse_rejects (cause := .badVersion) hin ?_
  rw [State.headerBytes_eq_cons hlen, h0, h1]
  exact decodeHeader_badVersion hversion _ _

/-- R91: the header bytes behind the right magic and version. -/
theorem State.headerBytes_of_magic (hlen : 4 ≤ s.lenOp) (h0 : s.inByte 0 = 0x02#8) (h1 : s.inByte 1 = 0x13#8)
    (h2 : s.inByte 2 = 0x01#8) :
    s.headerBytes = 0x02#8 :: 0x13#8 :: 0x01#8 :: s.inByte 3 :: s.inBytes 4 (min s.lenOp 22 - 4) := by
  rw [State.headerBytes_eq_cons hlen, h0, h1, h2]

/-- Settles O4: fewer than 16 bytes stand behind the flags byte. -/
theorem parseDictTruncated : Obligations.ParseDictTruncated := by
  intro s hin hlen h0 h1 h2 hcomp hshort
  have hdict : takeDict (flagComp (s.inByte 3)) (s.inBytes 4 (min s.lenOp 22 - 4)) = none := by
    rw [flagComp, hcomp]
    exact takeDict_truncated (by rw [State.length_inBytes]; omega)
  refine exec_parse_rejects (cause := .dictTruncated) hin ?_
  rw [State.headerBytes_of_magic hlen h0 h1 h2]
  exact decodeHeader_dictTruncated hdict

/-- Settles O5: the dictionary is taken if it is announced, and fewer than 2 bytes stand behind it. -/
theorem parseCksumTruncated : Obligations.ParseCksumTruncated := by
  intro s hin hlen h0 h1 h2 hcsum hfit hshort
  have hc := Bool.toNat_le ((s.inByte 3).getLsbD 7)
  have hdict := takeDict_inBytes (s := s) (c := flagComp (s.inByte 3)) (i := 4) (n := min s.lenOp 22 - 4)
    (by rw [flagComp]; omega)
  refine exec_parse_rejects (cause := .cksumTruncated) hin ?_
  rw [State.headerBytes_of_magic hlen h0 h1 h2]
  refine decodeHeader_cksumTruncated hdict ?_
  rw [flagCsum, hcsum]
  exact takeCksum_truncated (by rw [State.length_inBytes, flagComp]; omega)

/-! ## Acceptance -/

/-- R127: the header that the bytes of the input region are, read by the flags in `in[3]`. -/
def State.inputHeader (s : State) : Header where
  enc := flagEnc (s.inByte 3)
  unused := flagUnused (s.inByte 3)
  dict := s.dictField (flagComp (s.inByte 3)) 4
  cksum := s.cksumField (flagCsum (s.inByte 3)) (4 + 16 * (flagComp (s.inByte 3)).toNat)

/-- R94: the flags of that header are the bits of `in[3]`. -/
theorem State.inputHeader_comp : s.inputHeader.comp = flagComp (s.inByte 3) := State.isSome_dictField _ _

theorem State.inputHeader_csum : s.inputHeader.csum = flagCsum (s.inByte 3) := State.isSome_cksumField _ _

theorem State.inputHeader_dict (h : flagComp (s.inByte 3) = true) :
    s.inputHeader.dict = some (table16 fun j => s.inByte (4 + j)) := if_pos h

theorem State.inputHeader_dict_eq_none (h : flagComp (s.inByte 3) = false) : s.inputHeader.dict = none :=
  if_neg (Bool.eq_false_iff.1 h)

theorem State.inputHeader_cksum (h : flagCsum (s.inByte 3) = true) :
    s.inputHeader.cksum = some (wordOf (s.inByte (4 + 16 * (flagComp (s.inByte 3)).toNat))
      (s.inByte (4 + 16 * (flagComp (s.inByte 3)).toNat + 1))) := if_pos h

theorem State.inputHeader_cksum_eq_none (h : flagCsum (s.inByte 3) = false) : s.inputHeader.cksum = none :=
  if_neg (Bool.eq_false_iff.1 h)

/-- R125 to R127: with all the bytes its flags announce, PARSE accepts the header of the input region. -/
theorem execParse_accepts (hin : s.InputInRange) (h0 : s.inByte 0 = 0x02#8) (h1 : s.inByte 1 = 0x13#8)
    (h2 : s.inByte 2 = 0x01#8)
    (hfit : 4 + 16 * (flagComp (s.inByte 3)).toNat + 2 * (flagCsum (s.inByte 3)).toNat ≤ s.lenOp) :
    execParse s = .next (s.accept s.inputHeader) := by
  have hc := Bool.toNat_le (flagComp (s.inByte 3))
  have hk := Bool.toNat_le (flagCsum (s.inByte 3))
  have hdict := takeDict_inBytes (s := s) (c := flagComp (s.inByte 3)) (i := 4) (n := min s.lenOp 22 - 4) (by omega)
  have hcksum := takeCksum_inBytes (s := s) (k := flagCsum (s.inByte 3))
    (i := 4 + 16 * (flagComp (s.inByte 3)).toNat)
    (n := min s.lenOp 22 - 4 - 16 * (flagComp (s.inByte 3)).toNat) (by omega)
  have hdec := decodeHeader_accepts hdict hcksum
  rw [← State.headerBytes_of_magic (by omega) h0 h1 h2] at hdec
  exact execParse_of_ok hin hdec

/-- Settles O6: the record holds the fields of the header of the input region. -/
theorem parseAccepts : Obligations.ParseAccepts := by
  intro s c k off hin _ h0 h1 h2 hc hk hoff hfit
  obtain rfl : c = flagComp (s.inByte 3) := hc
  obtain rfl : k = flagCsum (s.inByte 3) := hk
  subst hoff
  refine ⟨s.accept s.inputHeader, execParse_accepts hin h0 h1 h2 hfit, rfl, rfl, ?comp, rfl, ?csum, ?hlen,
    fun hcomp i => ?dict, fun hcomp => State.accept_dict_unspecified (State.inputHeader_dict_eq_none hcomp),
    fun hcsum => ?ckval, fun hcsum => State.accept_ckval_unspecified (State.inputHeader_cksum_eq_none hcsum),
    frame_setRecord s _, quiet_setRecord s _⟩
  case comp => rw [State.accept_content_comp, State.inputHeader_comp]
  case csum => rw [State.accept_content_csum, State.inputHeader_csum]
  case hlen => rw [State.accept_content_hlen, State.inputHeader_comp, State.inputHeader_csum]
  case dict => rw [State.accept_content_dict (State.inputHeader_dict hcomp), table16_getElem _ _ i.isLt]
  case ckval =>
    rw [State.accept_content_ckval (State.inputHeader_cksum hcsum), toNat_wordOf, hcsum]
    rfl

end Sys2Proof.Machine
end

section
/-! PROOFS. The checksum (`spec/41_checksum.md` R140 to R142): the loop adds the bytes to its accumulator modulo 65536,
and CKSUM puts the outcome into SUM alone. -/

namespace Sys2Proof.Machine

variable {s : State}

/-! ## The byte sum -/

/-- R141: the loop adds the bytes to the accumulator, modulo 65536. -/
theorem toNat_sumFrom (acc : Word) (bs : List Byte) :
    (sumFrom acc bs).toNat = (acc.toNat + (bs.map BitVec.toNat).sum) % 65536 := by
  induction bs generalizing acc with
  | nil => exact (Nat.mod_eq_of_lt acc.isLt).symm
  | cons b bs ih =>
    have hb : (b.setWidth 16).toNat = b.toNat := BitVec.toNat_setWidth_of_le (by decide)
    simp only [sumFrom, ih, BitVec.toNat_add, hb, List.map_cons, List.sum_cons]
    omega

/-- R140: the checksum is the byte sum modulo 65536. -/
theorem toNat_sum16 (bs : List Byte) : (sum16 bs).toNat = (bs.map BitVec.toNat).sum % 65536 := by
  rw [sum16, toNat_sumFrom, BitVec.toNat_zero, Nat.zero_add]

/-- R140: equal byte sums have equal checksums, whatever the order of the bytes. -/
theorem sum16_perm {A B : List Byte} (h : A.Perm B) : sum16 A = sum16 B :=
  BitVec.eq_of_toNat_eq (by rw [toNat_sum16, toNat_sum16, (h.map BitVec.toNat).sum_eq])

/-- Settles O12: the byte sum of a concatenation is the sum of the two byte sums, and reduction modulo 65536 respects
addition. -/
theorem checksumAdditive : Obligations.ChecksumAdditive := by
  intro A B
  apply BitVec.eq_of_toNat_eq
  rw [BitVec.toNat_add, toNat_sum16, toNat_sum16, toNat_sum16, List.map_append, List.sum_append]
  exact Nat.add_mod _ _ _

/-- Settles O13: a permutation keeps the byte sum. -/
theorem checksumIsByteSum : Obligations.ChecksumIsByteSum :=
  ⟨toNat_sum16, rfl, fun _ _ => sum16_perm⟩

/-! ## CKSUM -/

/-- R141: the bytes `in[0]` to `in[LEN - 1]` of the statement are those that CKSUM sums. -/
theorem State.map_toNat_inBytes (n : Nat) :
    (s.inBytes 0 n).map BitVec.toNat = (List.range n).map fun i => (s.inByte i).toNat := by
  simp [State.inBytes]

/-- R12, R35: a new SUM changes no register but SUM and CKMATCH, and no byte of MEM. -/
theorem frame_setSum (s : State) (v : Held Word) : Frame s (s.setSum v) [.sum, .ckmatch] noBytes where
  regs_same := fun reg hreg => by
    cases reg with
    | sum | ckmatch => exact absurd (by decide) hreg
    | cmd | key | lfsr | src | len | dst | cap | rlen | valid | comp | enc | csum | ckval | hlen | rej | dict _ => rfl
  mem_same := fun _ _ => rfl

/-- A new SUM leaves the host port and the cursors. -/
theorem quiet_setSum (s : State) (v : Held Word) : Quiet s (s.setSum v) := ⟨⟨rfl, rfl, rfl⟩, rfl⟩

/-- Settles O11: the launch premise holds, so CKSUM runs, and the value it puts into SUM is the byte sum. -/
theorem cksumResult : Obligations.CksumResult := by
  intro s hin
  refine ⟨s.setSum (.put (sum16 (s.inBytes 0 s.lenOp))), execCksum_runs hin, ?sum, frame_setSum s _, quiet_setSum s _⟩
  case sum =>
    simp only [State.content, State.setSum_sum, Held.put_val, Held.put_known, toNat_sum16, State.map_toNat_inBytes]

end Sys2Proof.Machine
end

section
/-! PROOFS. The LFSR transition (`spec/42_lfsr_cipher.md` R150, R151, R160): its bits and the bits of its inverse, its
linearity over XOR, by which `n` steps are computed with repeated squaring, and its one cycle of 65535 states. -/

namespace Sys2Proof.Machine

/-! ## Bits -/

/-- R150: every bit moves one place down, and the feedback enters as bit 15. -/
theorem getLsbD_lfsrStep (s : Word) (i : Nat) :
    (lfsrStep s).getLsbD i = if i = 15 then feedback s else s.getLsbD (i + 1) := by
  obtain hi | rfl | hi : i < 15 ∨ i = 15 ∨ 15 < i := lt_trichotomy i 15
  · simp [lfsrStep, hi, hi.ne, Nat.add_comm]
  · simp [lfsrStep]
  · simp [lfsrStep, hi.ne', show ¬ i < 16 by omega, Nat.add_comm]

/-- R160: every bit moves one place up, and the bit that the step shifted out comes back as bit 0. -/
theorem getLsbD_lfsrUnstep (t : Word) (i : Nat) :
    (lfsrUnstep t).getLsbD i =
      if i = 0 then ((t.getLsbD 15 ^^ t.getLsbD 10) ^^ t.getLsbD 12) ^^ t.getLsbD 13
      else decide (i < 16) && t.getLsbD (i - 1) := by
  cases i <;> simp [lfsrUnstep]

/-- Settles O15: bits 0 to 14 are shifted, bit 15 is the feedback. -/
theorem lfsrStepBits : Obligations.LfsrStepBits := fun s =>
  ⟨fun i hi => (getLsbD_lfsrStep s i).trans (if_neg hi.ne), getLsbD_lfsrStep s 15⟩

/-! ## The inverse -/

/-- R160: bits 15, 10, 12 and 13 of the next state are the feedback and its taps 11, 13 and 14; their XOR is bit 0. -/
theorem lfsrUnstep_lfsrStep : Function.LeftInverse lfsrUnstep lfsrStep := fun s =>
  BitVec.eq_of_getLsbD_eq fun i hi => by
    rw [getLsbD_lfsrUnstep]
    cases i with
    | zero => simp only [getLsbD_lfsrStep, feedback]; grind
    | succ i => simp only [getLsbD_lfsrStep]; grind

/-- R160: with bit 0 restored, the feedback is the bit 15 the state before was computed from. -/
theorem lfsrStep_lfsrUnstep : Function.LeftInverse lfsrStep lfsrUnstep := fun t =>
  BitVec.eq_of_getLsbD_eq fun i hi => by
    rw [getLsbD_lfsrStep]
    split
    · next h15 => simp only [h15, feedback, getLsbD_lfsrUnstep]; grind
    · next h15 => simp only [getLsbD_lfsrUnstep]; grind

theorem lfsrStep_bijective : Function.Bijective lfsrStep :=
  ⟨lfsrUnstep_lfsrStep.injective, lfsrStep_lfsrUnstep.surjective⟩

theorem lfsrStep_zero : lfsrStep 0#16 = 0#16 := by decide

theorem iterate_lfsrStep_zero (n : Nat) : lfsrStep^[n] 0#16 = 0#16 := Function.iterate_fixed lfsrStep_zero n

/-- R159: 0 has no preimage but itself. -/
theorem iterate_lfsrStep_ne_zero {s : Word} (hs : s ≠ 0#16) (n : Nat) : lfsrStep^[n] s ≠ 0#16 := fun h =>
  hs (lfsrStep_bijective.injective.iterate n (h.trans (iterate_lfsrStep_zero n).symm))

/-! ## Maps that are linear over XOR

Such a map is given by its columns, its values on the words with one bit. -/

/-- The map respects XOR, the addition of words as vectors of bits. -/
def XorLinear (f : Word → Word) : Prop := ∀ a b, f (a ^^^ b) = f a ^^^ f b

theorem XorLinear.map_zero {f : Word → Word} (hf : XorLinear f) : f 0#16 = 0#16 := by
  have h := hf 0#16 0#16
  rwa [BitVec.xor_self, BitVec.xor_self] at h

/-- The lowest `n + 1` bits are the lowest `n` bits and bit `n`. -/
theorem setWidth_succ_eq_xor (v : Word) (n : Nat) :
    (v.setWidth (n + 1)).setWidth 16 =
      (v.setWidth n).setWidth 16 ^^^ (if v.getLsbD n then BitVec.twoPow 16 n else 0#16) :=
  BitVec.eq_of_getLsbD_eq fun i hi => by
    rw [apply_ite (fun w : Word => (_ ^^^ w).getLsbD i)]
    simp only [BitVec.getLsbD_setWidth, BitVec.getLsbD_xor, BitVec.getLsbD_twoPow, BitVec.getLsbD_zero]
    grind

/-- Linear maps that agree on the words with one bit are equal. -/
theorem XorLinear.eq_of_twoPow {f g : Word → Word} (hf : XorLinear f) (hg : XorLinear g)
    (h : ∀ i < 16, f (BitVec.twoPow 16 i) = g (BitVec.twoPow 16 i)) : f = g := by
  have hlow (v : Word) (n : Nat) : n ≤ 16 → f ((v.setWidth n).setWidth 16) = g ((v.setWidth n).setWidth 16) := by
    induction n with
    | zero => intro _; simp only [BitVec.setWidth_zero, BitVec.of_length_zero, hf.map_zero, hg.map_zero]
    | succ n ih =>
      intro hn
      rw [setWidth_succ_eq_xor, hf, hg, ih (by omega)]
      split
      · rw [h n hn]
      · rw [hf.map_zero, hg.map_zero]
  funext v
  simpa only [BitVec.setWidth_eq] using hlow v 16 le_rfl

/-- The value at `v` of the linear map with these columns: the XOR of the columns at the bits of `v` that are 1. -/
def applyColumns : List Word → Word → Word
  | [], _ => 0#16
  | c :: cs, v => (if v.getLsbD 0 then c else 0#16) ^^^ applyColumns cs (v >>> 1)

theorem xorLinear_applyColumns (cols : List Word) : XorLinear (applyColumns cols) := by
  intro a b
  induction cols generalizing a b with
  | nil => exact BitVec.xor_self.symm
  | cons c cs ih =>
    have hcolumn : ∀ p q : Bool,
        (if p ^^ q then c else 0#16) = (if p then c else 0#16) ^^^ (if q then c else 0#16) := by
      intro p q
      cases p <;> cases q <;> simp
    simp only [applyColumns, BitVec.ushiftRight_xor_distrib, ih, BitVec.getLsbD_xor, hcolumn]
    ac_rfl

/-- The columns of a composition are the images of the columns of the inner map. -/
theorem applyColumns_map {f : Word → Word} (hf : XorLinear f) (cols : List Word) (v : Word) :
    applyColumns (cols.map f) v = f (applyColumns cols v) := by
  induction cols generalizing v with
  | nil => exact hf.map_zero.symm
  | cons c cs ih => rw [List.map_cons, applyColumns, applyColumns, ih, hf, apply_ite f, hf.map_zero]

/-- The columns of the map applied twice. -/
def squareColumns (cols : List Word) : List Word := cols.map (applyColumns cols)

theorem applyColumns_squareColumns (cols : List Word) :
    applyColumns (squareColumns cols) = (applyColumns cols)^[2] :=
  funext (applyColumns_map (xorLinear_applyColumns cols) cols)

theorem applyColumns_iterate_squareColumns (k : Nat) (cols : List Word) :
    applyColumns (squareColumns^[k] cols) = (applyColumns cols)^[2 ^ k] := by
  induction k generalizing cols with
  | zero => rfl
  | succ k ih =>
    rw [Function.iterate_succ_apply, ih, applyColumns_squareColumns, ← Function.iterate_mul, Nat.pow_succ']

/-- `n` times the map with these columns, by repeated squaring: one round for each of the `k` binary digits of `n`. -/
def iterateColumns : (k : Nat) → (cols : List Word) → (n : Nat) → Word → Word
  | 0, _, _, v => v
  | k + 1, cols, n, v =>
    iterateColumns k (squareColumns cols) (n / 2) (if n % 2 = 1 then applyColumns cols v else v)

theorem iterateColumns_eq {k n : Nat} (cols : List Word) (hn : n < 2 ^ k) (v : Word) :
    iterateColumns k cols n v = (applyColumns cols)^[n] v := by
  induction k generalizing cols n v with
  | zero => rw [Nat.lt_one_iff.1 hn]; rfl
  | succ k ih =>
    have hodd : (if n % 2 = 1 then applyColumns cols v else v) = (applyColumns cols)^[n % 2] v := by
      obtain h | h := Nat.mod_two_eq_zero_or_one n <;> simp [h]
    rw [iterateColumns, ih _ (by omega), applyColumns_squareColumns, hodd, ← Function.iterate_mul,
      ← Function.iterate_add_apply, Nat.div_add_mod]

/-! ## The period -/

theorem xorLinear_lfsrStep : XorLinear lfsrStep := fun a b =>
  BitVec.eq_of_getLsbD_eq fun i _ => by
    simp only [getLsbD_lfsrStep, feedback, BitVec.getLsbD_xor]
    split
    · simp only [Bool.xor_assoc, Bool.xor_left_comm]
    · rfl

/-- The columns of one step. -/
def lfsrColumns : List Word := (List.range 16).map fun i => lfsrStep (BitVec.twoPow 16 i)

theorem lfsrStep_eq_applyColumns : lfsrStep = applyColumns lfsrColumns :=
  xorLinear_lfsrStep.eq_of_twoPow (xorLinear_applyColumns _) (by decide)

/-- The columns of 256 steps. -/
def lfsrColumns256 : List Word :=
  [0xFDE7#16, 0xFBCE#16, 0xF79D#16, 0xEF3A#16, 0xDE75#16, 0xBCEB#16, 0x79D6#16, 0xF3AC#16,
   0xE759#16, 0xCEB3#16, 0x9D66#16, 0xC72A#16, 0x8E54#16, 0xE14F#16, 0x3F79#16, 0x7EF3#16]

theorem iterate_256_lfsrStep : lfsrStep^[256] = applyColumns lfsrColumns256 := by
  have hcolumns : squareColumns^[8] lfsrColumns = lfsrColumns256 := by decide
  rw [← hcolumns, applyColumns_iterate_squareColumns, ← lfsrStep_eq_applyColumns]
  rfl

/-- Steps counted in base 256: `r` single ones to the state `v`, then `q` times 256. With `v` written out, neither half
is a long evaluation. -/
theorem iterate_lfsrStep_base256 {q r : Nat} {u v : Word}
    (hv : iterateColumns 8 lfsrColumns r u = v) (hq : q < 256 := by decide) (hr : r < 256 := by decide) :
    lfsrStep^[256 * q + r] u = iterateColumns 8 lfsrColumns256 q v := by
  rw [← hv, iterateColumns_eq _ hq, iterateColumns_eq _ hr, ← iterate_256_lfsrStep, ← lfsrStep_eq_applyColumns,
    ← Function.iterate_mul, ← Function.iterate_add_apply]

/-- A period `n` none of whose quotients by a prime is a period is the least one. -/
theorem minimalPeriod_eq_of_prime_quotients {α : Type} {f : α → α} {x : α} {n : Nat}
    (hper : Function.IsPeriodicPt f n x)
    (hquot : ∀ p, p.Prime → p ∣ n → ¬ Function.IsPeriodicPt f (n / p) x) : Function.minimalPeriod f x = n := by
  obtain ⟨c, hc⟩ := hper.minimalPeriod_dvd
  by_contra hne
  have hc1 : c ≠ 1 := fun h => hne (by rw [hc, h, mul_one])
  obtain ⟨p, hp, e, rfl⟩ := Nat.exists_prime_and_dvd hc1
  refine hquot p hp ⟨Function.minimalPeriod f x * e, by rw [hc, mul_left_comm]⟩ ?_
  rw [hc, mul_left_comm, Nat.mul_div_cancel_left _ hp.pos]
  exact (Function.isPeriodicPt_minimalPeriod f x).mul_const e

theorem prime_dvd_65535 {p : Nat} (hp : p.Prime) (h : p ∣ 65535) : p = 3 ∨ p = 5 ∨ p = 17 ∨ p = 257 := by
  have hfactors : 65535 = 3 * (5 * (17 * 257)) := rfl
  have hprimes : Nat.Prime 3 ∧ Nat.Prime 5 ∧ Nat.Prime 17 ∧ Nat.Prime 257 := by norm_num
  obtain ⟨h3, h5, h17, h257⟩ := hprimes
  rwa [hfactors, hp.dvd_mul, hp.dvd_mul, hp.dvd_mul, Nat.prime_dvd_prime_iff_eq hp h3, Nat.prime_dvd_prime_iff_eq hp h5,
    Nat.prime_dvd_prime_iff_eq hp h17, Nat.prime_dvd_prime_iff_eq hp h257] at h

theorem iterate_65535_lfsrStep_one : lfsrStep^[65535] 1#16 = 1#16 :=
  (iterate_lfsrStep_base256 (q := 255) (r := 255) (v := 0xFBCE#16) (by decide)).trans (by decide)

/-- The four maximal divisors of 65535 are no periods of the seed 1. -/
theorem iterate_lfsrStep_one_ne_one : lfsrStep^[65535 / 3] 1#16 ≠ 1#16 ∧ lfsrStep^[65535 / 5] 1#16 ≠ 1#16 ∧
    lfsrStep^[65535 / 17] 1#16 ≠ 1#16 ∧ lfsrStep^[65535 / 257] 1#16 ≠ 1#16 :=
  ⟨(iterate_lfsrStep_base256 (q := 85) (r := 85) (v := 0x8AAF#16) (by decide)).trans_ne (by decide),
    (iterate_lfsrStep_base256 (q := 51) (r := 51) (v := 0xD4FF#16) (by decide)).trans_ne (by decide),
    (iterate_lfsrStep_base256 (q := 15) (r := 15) (v := 0xA17A#16) (by decide)).trans_ne (by decide),
    (iterate_lfsrStep_base256 (q := 0) (r := 255) (v := 0xFBCE#16) (by decide)).trans_ne (by decide)⟩

/-- R151 for the seed 1: 65535 steps come back, and 65535 divided by any of its primes does not. -/
theorem minimalPeriod_lfsrStep_one : Function.minimalPeriod lfsrStep 1#16 = 65535 := by
  obtain ⟨h3, h5, h17, h257⟩ := iterate_lfsrStep_one_ne_one
  refine minimalPeriod_eq_of_prime_quotients iterate_65535_lfsrStep_one fun p hp hdvd => ?_
  obtain rfl | rfl | rfl | rfl := prime_dvd_65535 hp hdvd
  · exact h3
  · exact h5
  · exact h17
  · exact h257

/-- A cycle of 65535 nonzero states leaves out no nonzero value. -/
theorem exists_iterate_lfsrStep_eq {s v : Word} (hs : s ≠ 0#16) (hper : Function.minimalPeriod lfsrStep s = 65535)
    (hv : v ≠ 0#16) : ∃ k < 65535, lfsrStep^[k] s = v := by
  have hpos : ∀ w : Word, w ≠ 0#16 → 1 ≤ w.toNat := fun w hw =>
    Nat.one_le_iff_ne_zero.2 fun h => hw (BitVec.eq_of_toNat_eq h)
  have hmaps : ∀ k ∈ Finset.range 65535, (lfsrStep^[k] s).toNat ∈ Finset.Ico 1 65536 := fun k _ =>
    Finset.mem_Ico.2 ⟨hpos _ (iterate_lfsrStep_ne_zero hs k), BitVec.isLt _⟩
  have hinj : Set.InjOn (fun k => (lfsrStep^[k] s).toNat) (Finset.range 65535) := by
    intro i hi j hj h
    rw [Finset.mem_coe, Finset.mem_range, ← hper] at hi hj
    exact (Function.iterate_eq_iterate_iff_of_lt_minimalPeriod hi hj).1 (BitVec.eq_of_toNat_eq h)
  have hcard : (Finset.Ico 1 65536).card ≤ (Finset.range 65535).card := by rw [Nat.card_Ico, Finset.card_range]
  obtain ⟨k, hk, h⟩ := Finset.surjOn_of_injOn_of_card_le _ hmaps hinj hcard
    (Finset.mem_coe.2 (Finset.mem_Ico.2 ⟨hpos v hv, v.isLt⟩))
  exact ⟨k, Finset.mem_range.1 hk, BitVec.eq_of_toNat_eq h⟩

/-- R151: every nonzero state lies on the cycle of 1, and so has its period. -/
theorem minimalPeriod_lfsrStep {s : Word} (hs : s ≠ 0#16) : Function.minimalPeriod lfsrStep s = 65535 := by
  obtain ⟨k, -, rfl⟩ := exists_iterate_lfsrStep_eq (by decide) minimalPeriod_lfsrStep_one hs
  have hone : 1#16 ∈ Function.periodicPts lfsrStep :=
    Function.minimalPeriod_pos_iff_mem_periodicPts.1 (by rw [minimalPeriod_lfsrStep_one]; decide)
  rw [Function.minimalPeriod_apply_iterate hone, minimalPeriod_lfsrStep_one]

theorem lfsrStep_eq_self_iff {s : Word} : lfsrStep s = s ↔ s = 0#16 := by
  constructor
  · intro h
    by_contra hs
    have hone : Function.minimalPeriod lfsrStep s = 1 := Function.minimalPeriod_eq_one_iff_isFixedPt.2 h
    rw [minimalPeriod_lfsrStep hs] at hone
    contradiction
  · rintro rfl
    exact lfsrStep_zero

/-- Settles O16: the least period of every nonzero seed is 65535, so its first 65535 states are all the nonzero values,
each once. -/
theorem lfsrMaximalPeriod : Obligations.LfsrMaximalPeriod := by
  refine ⟨fun s => lfsrStep_eq_self_iff, lfsrStep_bijective, fun s hs => ?_, by decide⟩
  have hper := minimalPeriod_lfsrStep hs
  refine ⟨hper ▸ Function.iterate_minimalPeriod, fun v hv => ?_⟩
  obtain ⟨k, hk, hkv⟩ := exists_iterate_lfsrStep_eq hs hper hv
  refine ⟨k, ⟨hk, hkv⟩, fun j ⟨hj, hjv⟩ => ?_⟩
  exact (Function.iterate_eq_iterate_iff_of_lt_minimalPeriod (hper ▸ hj) (hper ▸ hk)).1 (hjv.trans hkv.symm)

end Sys2Proof.Machine
end

section
/-! PROOFS. The keystream and the commands STEP and DECRYPT (`spec/42_lfsr_cipher.md` R152 to R160): the loop of
DECRYPT in closed form, what either command leaves behind, and the key read off the keystream. -/

namespace Sys2Proof.Machine

variable {s : State}

/-! ## The keystream -/

/-- R153: `S_(j+1) = lfsr_step(S_j)`. -/
theorem cipherState_succ (K : Word) (j : Nat) : cipherState K (j + 1) = lfsrStep (cipherState K j) :=
  Function.iterate_succ_apply' lfsrStep (j + 1) K

@[simp] theorem ks_even (K : Word) (j : Nat) : ks K (2 * j) = lowByte (cipherState K j) := by
  simp [ks]

@[simp] theorem ks_odd (K : Word) (j : Nat) : ks K (2 * j + 1) = highByte (cipherState K j) := by
  simp [ks, Nat.mul_add_div]

/-- R159: under the key 0 every keystream byte is 0. -/
theorem ks_zero (i : Nat) : ks 0#16 i = 0#8 := by
  have hstate : cipherState 0#16 (i / 2) = 0#16 := iterate_lfsrStep_zero _
  rw [ks, hstate]
  split <;> rfl

/-- Settles O17: bytes `2j` and `2j + 1` of the keystream are the state `S_j`, which is `j + 1` steps from the key. -/
theorem lfsrInverse : Obligations.LfsrInverse := by
  refine ⟨fun s t => ⟨?forward, ?backward⟩, fun t => ⟨fun i hlo hhi => ?shifted, getLsbD_lfsrUnstep t 0⟩,
    fun K j => ?key⟩
  case forward => rintro rfl; exact lfsrUnstep_lfsrStep s
  case backward => rintro rfl; exact lfsrStep_lfsrUnstep t
  case shifted => rw [getLsbD_lfsrUnstep, if_neg (by omega), decide_eq_true hhi, Bool.true_and]
  case key =>
    rw [ks_odd, ks_even, wordOf_highByte_lowByte]
    exact lfsrUnstep_lfsrStep.iterate (j + 1) K

/-! ## The loop of DECRYPT -/

/-- R156, R157: from `S_j` the loop takes its keystream from index `2j` on, or from `2j + 1` on in the middle of a pair,
and steps the register once for each pair it completes. -/
theorem cipherLoop_cipherState (K : Word) (j : Nat) (bs : List Byte) :
    cipherLoop false (cipherState K j) bs =
      (bs.mapIdx fun i b => b ^^^ ks K (2 * j + i), cipherState K (j + bs.length / 2)) ∧
    cipherLoop true (cipherState K j) bs =
      (bs.mapIdx fun i b => b ^^^ ks K (2 * j + 1 + i), cipherState K (j + (bs.length + 1) / 2)) := by
  induction bs generalizing j with
  | nil => exact ⟨rfl, rfl⟩
  | cons b bs ih =>
    constructor
    · have hindex : ∀ i, 2 * j + 1 + i = 2 * j + (i + 1) := by omega
      simp only [cipherLoop, (ih j).2, List.mapIdx_cons, List.length_cons, Nat.add_zero, ks_even, hindex]
    · have hindex : ∀ i, 2 * (j + 1) + i = 2 * j + 1 + (i + 1) := by omega
      have hsteps : j + 1 + bs.length / 2 = j + (bs.length + 1 + 1) / 2 := by omega
      simp only [cipherLoop, ← cipherState_succ, (ih (j + 1)).1, List.mapIdx_cons, List.length_cons, Nat.add_zero,
        ks_odd, hindex, hsteps]

/-- R156, R157: the loop as DECRYPT starts it, one step after the key. -/
theorem cipherLoop_key (K : Word) (bs : List Byte) :
    cipherLoop false (lfsrStep K) bs = (cipherBytes K bs, cipherState K (bs.length / 2)) := by
  have h := (cipherLoop_cipherState K 0 bs).1
  simp only [Nat.mul_zero, Nat.zero_add] at h
  exact h

@[simp] theorem length_cipherBytes (K : Word) (bs : List Byte) : (cipherBytes K bs).length = bs.length :=
  List.length_mapIdx

@[simp] theorem getElem_cipherBytes (K : Word) (bs : List Byte) (i : Nat) (h : i < (cipherBytes K bs).length) :
    (cipherBytes K bs)[i] = bs[i]'(length_cipherBytes K bs ▸ h) ^^^ ks K i :=
  List.getElem_mapIdx

@[simp] theorem State.length_cipherInput : s.cipherInput.length = min s.lenOp s.capOp := State.length_inBytes _ _

@[simp] theorem State.getElem_cipherInput (i : Nat) (h : i < s.cipherInput.length) :
    s.cipherInput[i] = s.inByte i := by simp [State.cipherInput]

/-! ## STEP -/

/-- R12: a new LFSR changes no other register and no byte of MEM. -/
theorem frame_setLfsr (s : State) (v : Held Word) : Frame s (s.setLfsr v) [.lfsr] noBytes where
  regs_same := fun reg hreg => by
    cases reg with
    | lfsr => exact absurd (by decide) hreg
    | cmd | key | sum | src | len | dst | cap | rlen | valid | comp | enc | csum | ckval | hlen | rej | ckmatch
    | dict _ => rfl
  mem_same := fun _ _ => rfl

/-- A new LFSR leaves the host port and the cursors. -/
theorem quiet_setLfsr (s : State) (v : Held Word) : Quiet s (s.setLfsr v) := ⟨⟨rfl, rfl, rfl⟩, rfl⟩

/-- Settles O18: STEP is one update of LFSR in every state. -/
theorem stepResult : Obligations.StepResult :=
  ⟨fun s => ⟨s.setLfsr (.put (lfsrStep s.lfsrOp)), rfl, rfl, frame_setLfsr s _, quiet_setLfsr s _⟩, by decide⟩

/-! ## DECRYPT -/

/-- R155 to R157: the state after a DECRYPT, in closed form. -/
def State.decrypted (s : State) : State :=
  ((s.output 0 (cipherBytes s.keyOp s.cipherInput)).setLfsr
    (.put (cipherState s.keyOp (min s.lenOp s.capOp / 2)))).setRlen (.put (min s.lenOp s.capOp))

theorem execDecrypt_eq_decrypted (h : s.Launchable) : execDecrypt s = .next s.decrypted := by
  rw [execDecrypt_runs h, cipherLoop_key, length_cipherBytes, State.length_cipherInput, State.decrypted]

/-- R156: output byte `i` is input byte `i` XOR keystream byte `i`. -/
theorem State.read_decrypted {i : Nat} (hi : i < min s.lenOp s.capOp) :
    Memory.read s.decrypted.mem (s.dstOp + i) = some (s.inByte i ^^^ ks s.keyOp i) := by
  have h := s.output_inside 0 (cipherBytes s.keyOp s.cipherInput) i (by simpa using hi)
  rwa [getElem_cipherBytes, State.getElem_cipherInput] at h

/-- R155: DECRYPT changes LFSR, RLEN and the bytes it outputs. -/
theorem frame_decrypted (s : State) :
    Frame s s.decrypted [.lfsr, .rlen] (bytesAt s.dstOp (min s.lenOp s.capOp)) where
  regs_same := fun reg hreg => by
    cases reg with
    | lfsr | rlen => exact absurd (by decide) hreg
    | cmd | key | sum | src | len | dst | cap | valid | comp | enc | csum | ckval | hlen | rej | ckmatch | dict _ => rfl
  mem_same := fun x hx =>
    s.output_outside 0 (cipherBytes s.keyOp s.cipherInput) x (by simpa using hx)

/-- A DECRYPT leaves the host port and the cursors. -/
theorem quiet_decrypted (s : State) : Quiet s s.decrypted := ⟨⟨rfl, rfl, rfl⟩, rfl⟩

/-- Settles O19: the launch premises hold, so DECRYPT runs, and its loop is the closed form. -/
theorem decryptResult : Obligations.DecryptResult := by
  intro s hl
  refine ⟨s.decrypted, execDecrypt_eq_decrypted hl, rfl, ?lfsr, fun i hi => State.read_decrypted hi,
    frame_decrypted s, quiet_decrypted s⟩
  case lfsr =>
    rw [Nat.add_comm 1]
    rfl

/-- Settles O20: the second run XORs the same keystream onto the bytes the first run wrote. -/
theorem decryptSelfInverse : Obligations.DecryptSelfInverse := by
  intro s t s' hl hl' hcap ht hkey hlen hcap' hin
  obtain ⟨u, hu, -, -, hout, -, -⟩ := decryptResult s hl
  obtain ⟨t', ht', hrlen', -, hout', -, -⟩ := decryptResult s' hl'
  obtain rfl : t = u := by injection ht.symm.trans hu
  rw [Nat.min_eq_left hcap] at hout
  rw [Nat.min_eq_left hcap', hlen] at hrlen' hout'
  refine ⟨t', ht', hrlen', fun i hi => ?_⟩
  rw [hout' i hi, hkey, hin i hi, State.byteAt_written (hout i hi), BitVec.xor_assoc, BitVec.xor_self, BitVec.xor_zero]

/-- Settles O21: under the key 0 the keystream is 0 and the LFSR stays at 0. -/
theorem decryptZeroKey : Obligations.DecryptZeroKey := by
  intro s hl hkey
  obtain ⟨t, ht, -, hlfsr, hout, -, -⟩ := decryptResult s hl
  rw [hkey, iterate_lfsrStep_zero] at hlfsr
  refine ⟨t, ht, hlfsr, fun i hi => ?_⟩
  rw [hout i hi, hkey, ks_zero, BitVec.xor_zero]

end Sys2Proof.Machine
end

section
/-! PROOFS. DECOMP and its tokens (`spec/43_decompress.md` R171 to R182): a token's effect, the expansion of a stream
token by token, the closed form that every turn of the loop keeps, and the bound of an expansion. -/

namespace Sys2Proof.Machine

variable {s : State} {c : Cursors}

/-! ## The bytes a token is read from -/

theorem State.take_inBytes (k i n : Nat) : (s.inBytes i n).take k = s.inBytes i (min k n) := by
  rw [State.inBytes, ← List.map_take, List.take_range, State.inBytes]

/-- R98: a token is read from the first two bytes of what is left of the input region. -/
theorem State.tokenBytes_eq_take (ic : Nat) : s.tokenBytes ic = (s.inBytes ic (s.lenOp - ic)).take 2 :=
  (State.take_inBytes 2 ic _).symm

theorem State.tokenBytes_of_pair {ic : Nat} (h : ic + 1 < s.lenOp) :
    s.tokenBytes ic = [s.inByte ic, s.inByte (ic + 1)] := by
  rw [State.tokenBytes, Nat.min_eq_left (by omega)]
  rfl

theorem State.tokenBytes_of_last {ic : Nat} (h : ic + 1 = s.lenOp) : s.tokenBytes ic = [s.inByte ic] := by
  rw [State.tokenBytes, show min 2 (s.lenOp - ic) = 1 by omega]
  rfl

theorem State.tokenBytes_cons {ic : Nat} (h : ic < s.lenOp) : ∃ rest, s.tokenBytes ic = s.inByte ic :: rest := by
  obtain hpair | hlast : ic + 1 < s.lenOp ∨ ic + 1 = s.lenOp := by omega
  · exact ⟨_, State.tokenBytes_of_pair hpair⟩
  · exact ⟨_, State.tokenBytes_of_last hlast⟩

/-! ## The effect of a token -/

/-- R171 to R174: the cursors after a token that runs at cursors `c`. -/
def State.cursorsAfter (s : State) (c : Cursors) (tok : Token) : Cursors :=
  ⟨c.ic + tokenUsed tok, c.oc + s.room c.oc (tokenCount tok)⟩

/-- R171 to R174: the state after a token that runs at cursors `c`. -/
def State.afterToken (s : State) (c : Cursors) (tok : Token) : State :=
  (s.output c.oc (List.replicate (s.room c.oc (tokenCount tok)) (tokenByte s tok))).setCursors
    (some (s.cursorsAfter c tok))

theorem execToken_running (hc : s.cursors = some c) (tok : Token) : execToken tok s = .next (s.afterToken c tok) :=
  (execToken_eq tok s).trans (State.emit_running hc _ _ _)

theorem exec_token_running (hc : s.cursors = some c) (tok : Token) :
    exec tok.toInstr s = .next (s.afterToken c tok) :=
  (exec_token tok s).trans (execToken_running hc tok)

/-- Every byte that a token writes is the token's byte. -/
theorem State.read_afterToken {tok : Token} {j : Nat} (hj : j < s.room c.oc (tokenCount tok)) :
    Memory.read (s.afterToken c tok).mem (s.dstOp + c.oc + j) = some (tokenByte s tok) := by
  have h := s.output_inside c.oc (List.replicate (s.room c.oc (tokenCount tok)) (tokenByte s tok)) j
    (by rwa [List.length_replicate])
  rwa [List.getElem_replicate] at h

/-- R12: a token changes no register and no byte of MEM but those it writes. -/
theorem frame_afterToken (s : State) (c : Cursors) (tok : Token) :
    Frame s (s.afterToken c tok) [] (bytesAt (s.dstOp + c.oc) (s.room c.oc (tokenCount tok))) where
  regs_same := fun reg _ => by cases reg <;> rfl
  mem_same := fun x hx => s.output_outside c.oc _ x (by rwa [List.length_replicate])

/-- A token leaves the host port. -/
theorem samePort_afterToken (s : State) (c : Cursors) (tok : Token) : SamePort s (s.afterToken c tok) :=
  ⟨rfl, rfl, rfl⟩

theorem State.room_one {oc : Nat} (h : oc < s.capOp) : s.room oc 1 = 1 := by
  simp only [State.room]; omega

/-- R171, R172, R174: what a token that asks for one byte does where there is room for it. -/
theorem exec_token_of_count_one {tok : Token} (hc : s.cursors = some c) (hoc : c.oc < s.capOp)
    (hcount : tokenCount tok = 1) :
    exec tok.toInstr s = .next (s.afterToken c tok) ∧
      (s.afterToken c tok).cursors = some ⟨c.ic + tokenUsed tok, c.oc + 1⟩ ∧
      Memory.read (s.afterToken c tok).mem (s.dstOp + c.oc) = some (tokenByte s tok) ∧
      Frame s (s.afterToken c tok) [] (bytesAt (s.dstOp + c.oc) 1) ∧ SamePort s (s.afterToken c tok) := by
  have hroom : s.room c.oc (tokenCount tok) = 1 := by rw [hcount, State.room_one hoc]
  refine ⟨exec_token_running hc tok, ?_, State.read_afterToken (j := 0) (by omega), ?_, samePort_afterToken s c tok⟩
  · rw [← hroom]
    rfl
  · exact hroom ▸ frame_afterToken s c tok

/-- Settles O22: the first byte left decides for LIT, and LIT asks for one byte. -/
theorem litToken : Obligations.LitToken := by
  intro s c hc hic hoc hb
  obtain ⟨rest, hbytes⟩ := State.tokenBytes_cons hic
  have hdec := decodeToken_lit hb rest
  rw [← hbytes] at hdec
  exact ⟨⟨rest, hdec⟩, _, exec_token_of_count_one (tok := .lit (s.inByte c.ic)) hc hoc rfl⟩

/-- Settles O23: the pair 07 00 decodes to ESCLIT, and ESCLIT asks for one byte. -/
theorem esclitToken : Obligations.EsclitToken := by
  intro s c hc hic hoc hb hB
  refine ⟨⟨[], ?_⟩, _, exec_token_of_count_one (tok := .esclit) hc hoc rfl⟩
  rw [State.tokenBytes_of_pair hic, hb, hB, decodeToken_esclit]

/-- R99: the two nibbles of a RUN's second byte as one number. -/
theorem toNat_runByte (count index : BitVec 4) : (runByte count index).toNat = count.toNat * 16 + index.toNat := by
  rw [runByte, BitVec.toNat_append, ← Nat.shiftLeft_add_eq_or_of_lt index.isLt, Nat.shiftLeft_eq]

/-- Settles O24: the pair decodes to the RUN of its two nibbles, and the room at `oc` is the least of the count and
what is left of the capacity. -/
theorem runToken : Obligations.RunToken := by
  rintro s c count index k hc hic hoc hb hB hB0 rfl
  have hbyte : s.inByte (c.ic + 1) = runByte count index :=
    BitVec.eq_of_toNat_eq (hB.trans (toNat_runByte count index).symm)
  refine ⟨⟨[], ?decoded⟩, _, exec_token_running hc (.run count index), rfl, fun j hj => State.read_afterToken hj,
    frame_afterToken s c _, samePort_afterToken s c _⟩
  case decoded =>
    rw [State.tokenBytes_of_pair hic, hb, decodeToken_run hB0, hbyte, highNibble_runByte, lowNibble_runByte]

theorem step_of_cursors (hc : s.cursors = some c) : step s = tokenStep s c := by
  simp only [step, hc]

/-- Settles O25: the last byte of the region, when it is 07, decodes to ESCEOF, and no input is left after it. -/
theorem esceofToken : Obligations.EsceofToken := by
  intro s c hc hic hoc hb
  obtain ⟨hexec, hcursors, hread, hframe, hport⟩ := exec_token_of_count_one (tok := .esceof) hc hoc rfl
  refine ⟨⟨[], ?decoded⟩, _, hexec, hcursors, hread, hframe, hport, ?ends⟩
  case decoded => rw [State.tokenBytes_of_last hic, hb, decodeToken_esceof]
  case ends =>
    have hexhausted : ¬ (c.ic + 1 < s.lenOp ∧ c.oc + 1 < s.capOp) := by omega
    exact (step_of_cursors hcursors).trans (tokenStep_ends hexhausted)

/-! ## The expansion, token by token -/

section Expansion

variable (D : BitVec 4 → Byte)

theorem expand_lit {b : Byte} (hb : b ≠ 0x07#8) (bs : List Byte) : expand D (b :: bs) = b :: expand D bs := by
  cases bs with
  | nil => rfl
  | cons B r => rw [expand, if_neg hb]

theorem expand_esclit (r : List Byte) : expand D (0x07#8 :: 0x00#8 :: r) = 0x07#8 :: expand D r := by
  rw [expand, if_pos rfl, if_pos rfl]

theorem expand_run {B : Byte} (hB : B ≠ 0x00#8) (r : List Byte) :
    expand D (0x07#8 :: B :: r) = List.replicate (highNibble B).toNat (D (lowNibble B)) ++ expand D r := by
  rw [expand, if_pos rfl, if_neg hB]

/-- R182: a stream without the byte 07 is its own expansion. -/
theorem expand_of_no_escape {bs : List Byte} (h : ∀ b ∈ bs, b ≠ 0x07#8) : expand D bs = bs := by
  induction bs with
  | nil => rfl
  | cons b bs ih =>
    obtain ⟨hb, hbs⟩ := List.forall_mem_cons.1 h
    rw [expand_lit D hb, ih hbs]

end Expansion

/-- R176: the expansion is what the first token asks for, then the expansion of the bytes behind it. -/
theorem expand_of_decodeToken {tok : Token} {bs rest : List Byte} (h : decodeToken bs = some (tok, rest)) :
    expand s.dictBytes bs = List.replicate (tokenCount tok) (tokenByte s tok) ++ expand s.dictBytes rest := by
  obtain ⟨hwf, rfl, hend⟩ := decodeToken_sound h
  cases tok with
  | lit b => exact expand_lit _ (Token.lit_wf_iff.1 hwf) rest
  | esclit => exact expand_esclit _ rest
  | run count index =>
    have hrun := expand_run s.dictBytes (Token.run_wf_iff.1 hwf) rest
    rwa [highNibble_runByte, lowNibble_runByte] at hrun
  | esceof =>
    rw [hend rfl]
    rfl

theorem tokenUsed_le_two (tok : Token) : tokenUsed tok ≤ 2 := by
  cases tok <;> simp [tokenUsed]

theorem length_encode_token (tok : Token) : (encode tok.toInstr).length = tokenUsed tok := by
  cases tok <;> rfl

/-- The bytes behind a token are those after the ones it takes. -/
theorem decodeToken_rest {tok : Token} {bs rest : List Byte} (h : decodeToken bs = some (tok, rest)) :
    rest = bs.drop (tokenUsed tok) := by
  obtain ⟨-, rfl, -⟩ := decodeToken_sound h
  exact (List.drop_left' (length_encode_token tok)).symm

/-- R98: the first two bytes decide the token. -/
theorem decodeToken_take_two {tok : Token} {bs rest : List Byte} (h : decodeToken bs = some (tok, rest)) :
    decodeToken (bs.take 2) = some (tok, rest.take (2 - tokenUsed tok)) := by
  obtain ⟨hwf, rfl, hend⟩ := decodeToken_sound h
  have hlen : (encode tok.toInstr).length ≤ 2 := length_encode_token tok ▸ tokenUsed_le_two tok
  refine decodeToken_eq_some_iff.2 ⟨hwf, ?_, fun e => by rw [hend e, List.take_nil]⟩
  rw [List.take_append, List.take_of_length_le hlen, length_encode_token]

/-! ## The closed form of DECOMP -/

/-- R176: what is left of the input region at input cursor `ic`, expanded. -/
def State.expansionFrom (s : State) (ic : Nat) : List Byte := expand s.dictBytes (s.inBytes ic (s.lenOp - ic))

/-- R175 to R177: what a DECOMP at cursors `c` still writes: the expansion of the input left, cut to the room left. -/
def State.remainder (s : State) (c : Cursors) : List Byte := (s.expansionFrom c.ic).take (s.capOp - c.oc)

/-- The state in which a DECOMP at cursors `c` ends. -/
def State.decompressed (s : State) (c : Cursors) : State :=
  ((s.output c.oc (s.remainder c)).setRlen (.put (c.oc + (s.remainder c).length))).setCursors none

/-- R177: where input or room is exhausted, nothing is left to write. -/
theorem State.finish_eq_decompressed (hend : ¬ (c.ic < s.lenOp ∧ c.oc < s.capOp)) :
    s.finish c = s.decompressed c := by
  have hnil : s.remainder c = [] := by
    obtain hic | hoc : s.lenOp - c.ic = 0 ∨ s.capOp - c.oc = 0 := by omega
    · rw [State.remainder, State.expansionFrom, hic]
      exact List.take_nil
    · rw [State.remainder, hoc, List.take_zero]
  rw [State.decompressed, hnil]
  rfl

/-- R176: the expansion of the input left begins with what the token at `ic` asks for. -/
theorem State.expansionFrom_eq_append {ic : Nat} {tok : Token} {rest : List Byte}
    (h : decodeToken (s.tokenBytes ic) = some (tok, rest)) :
    s.expansionFrom ic =
      List.replicate (tokenCount tok) (tokenByte s tok) ++ s.expansionFrom (ic + tokenUsed tok) := by
  rw [State.tokenBytes_eq_take] at h
  have hne : s.inBytes ic (s.lenOp - ic) ≠ [] := by
    intro e
    rw [e] at h
    cases h
  obtain ⟨tok', rest', hdec, -⟩ := decodeToken_some hne
  cases (decodeToken_take_two hdec).symm.trans h
  rw [State.expansionFrom, expand_of_decodeToken hdec, decodeToken_rest hdec, State.drop_inBytes, Nat.sub_sub,
    State.expansionFrom]

/-- R65: no token changes the input region. -/
theorem State.inBytes_afterToken (hl : s.Launchable) (hoc : c.oc ≤ s.capOp) (tok : Token) (i : Nat) :
    (s.afterToken c tok).inBytes i (s.lenOp - i) = s.inBytes i (s.lenOp - i) := by
  refine List.map_congr_left fun j hj => ?_
  have hj : j < s.lenOp - i := List.mem_range.1 hj
  refine State.byteAt_congr (State.output_outside_region ?_ (hl.input_outside_output (by omega))) rfl
  rw [List.length_replicate]
  exact State.room_fits _ hoc

theorem State.expansionFrom_afterToken (hl : s.Launchable) (hoc : c.oc ≤ s.capOp) (tok : Token) (i : Nat) :
    (s.afterToken c tok).expansionFrom i = s.expansionFrom i :=
  congrArg (expand s.dictBytes) (State.inBytes_afterToken hl hoc tok i)

theorem Memory.writeBytes_append (m : Memory) (a : Nat) (us vs : List Byte) :
    Memory.writeBytes m a (us ++ vs) = Memory.writeBytes (Memory.writeBytes m a us) (a + us.length) vs := by
  induction us generalizing m a with
  | nil => rfl
  | cons u us ih =>
    rw [List.cons_append, Memory.writeBytes, ih, Memory.writeBytes, List.length_cons, Nat.add_assoc, Nat.add_comm 1]

theorem State.output_append (i : Nat) (us vs : List Byte) :
    s.output i (us ++ vs) = (s.output i us).output (i + us.length) vs := by
  rw [State.output, Memory.writeBytes_append, Nat.add_assoc]
  rfl

/-- R173, R176: what is left to write at `c` is what the next token writes, then what is left to write after it. -/
theorem State.remainder_eq_append (hl : s.Launchable) (hoc : c.oc ≤ s.capOp) {tok : Token} {rest : List Byte}
    (hdec : decodeToken (s.tokenBytes c.ic) = some (tok, rest)) :
    s.remainder c = List.replicate (s.room c.oc (tokenCount tok)) (tokenByte s tok) ++
      (s.afterToken c tok).remainder (s.cursorsAfter c tok) := by
  have hleft : s.capOp - (s.cursorsAfter c tok).oc = s.capOp - c.oc - tokenCount tok := by
    simp only [State.cursorsAfter, State.room]; omega
  rw [State.remainder, State.expansionFrom_eq_append hdec, List.take_append, List.take_replicate,
    List.length_replicate, State.remainder, State.expansionFrom_afterToken hl hoc, ← hleft, Nat.min_comm]
  rfl

/-- The step of the induction: a token leaves the state in which its DECOMP ends. -/
theorem State.decompressed_afterToken (hl : s.Launchable) (hoc : c.oc ≤ s.capOp) {tok : Token} {rest : List Byte}
    (hdec : decodeToken (s.tokenBytes c.ic) = some (tok, rest)) :
    (s.afterToken c tok).decompressed (s.cursorsAfter c tok) = s.decompressed c := by
  rw [State.decompressed, State.decompressed, State.remainder_eq_append hl hoc hdec, State.output_append,
    List.length_append, List.length_replicate, ← Nat.add_assoc]
  rfl

/-- R175: by induction on the fuel. Every token takes a byte of the input left, so the loop ends before the fuel. -/
theorem decompLoop_eq_decompressed {fuel : Nat} (hl : s.Launchable) (hc : s.cursors = some c) (hoc : c.oc ≤ s.capOp)
    (hfuel : s.lenOp - c.ic < fuel) : decompLoop fuel s = .next (s.decompressed c) := by
  induction fuel generalizing s c with
  | zero => omega
  | succ fuel ih =>
    rw [decompLoop_succ _ hc]
    by_cases hroom : c.ic < s.lenOp ∧ c.oc < s.capOp
    · obtain ⟨tok, rest, hdec, -⟩ := decodeToken_some (State.tokenBytes_ne_nil hroom.1)
      have hused := tokenUsed_pos tok
      have hless : s.lenOp - (s.cursorsAfter c tok).ic < fuel := by
        simp only [State.cursorsAfter]; omega
      have hl' : (s.afterToken c tok).Launchable := SameRegions.launchable (s := s) ⟨rfl, rfl, rfl, rfl⟩ hl
      rw [tokenStep_token hroom hdec, execToken_running hc, andThen_next, ih hl' rfl (State.room_fits _ hoc) hless,
        State.decompressed_afterToken hl hoc hdec]
    · rw [tokenStep_ends hroom, andThen_next, decompLoop_of_ended _ rfl, State.finish_eq_decompressed hroom]

/-! ## DECOMP -/

/-- R175 to R177: DECOMP, in closed form. -/
theorem execDecomp_eq_decompressed (h : s.Launchable) : execDecomp s = .next (s.decompressed ⟨0, 0⟩) := by
  have hl : (s.setCursors (some ⟨0, 0⟩)).Launchable := SameRegions.launchable (s := s) ⟨rfl, rfl, rfl, rfl⟩ h
  exact (execDecomp_runs h).trans (decompLoop_eq_decompressed hl rfl (Nat.zero_le _) (Nat.lt_succ_self _))

/-- R176: a DECOMP writes the first CAP bytes of the expansion of its input. -/
theorem State.remainder_start : s.remainder ⟨0, 0⟩ = (expand s.dictBytes s.input).take s.capOp := rfl

theorem State.content_rlen_decompressed (c : Cursors) :
    (s.decompressed c).content .rlen = (c.oc + (s.remainder c).length, true) := rfl

theorem State.read_decompressed {j : Nat} {v : Byte} (h : (s.remainder c)[j]? = some v) :
    Memory.read (s.decompressed c).mem (s.dstOp + c.oc + j) = some v := by
  obtain ⟨hj, rfl⟩ := List.getElem?_eq_some_iff.1 h
  exact s.output_inside c.oc (s.remainder c) j hj

/-- R178: DECOMP changes RLEN and the bytes it outputs. -/
theorem frame_decompressed (s : State) (c : Cursors) :
    Frame s (s.decompressed c) [.rlen] (bytesAt (s.dstOp + c.oc) (s.remainder c).length) where
  regs_same := fun reg hreg => by
    cases reg with
    | rlen => exact absurd (by decide) hreg
    | cmd | key | lfsr | sum | src | len | dst | cap | valid | comp | enc | csum | ckval | hlen | rej | ckmatch
    | dict _ => rfl
  mem_same := fun x hx => s.output_outside c.oc (s.remainder c) x hx

/-- A DECOMP leaves the host port, and no cursors remain (R40). -/
theorem quiet_decompressed (hc : s.cursors = none) (c : Cursors) : Quiet s (s.decompressed c) :=
  ⟨⟨rfl, rfl, rfl⟩, hc.symm⟩

/-- Settles O26: the launch premises hold, so DECOMP runs, and from cursors 0 its closed form writes the expansion of
the whole input, cut to CAP. -/
theorem decompExpands : Obligations.DecompExpands := by
  intro s hl hc
  have hlen : (s.remainder ⟨0, 0⟩).length = min s.capOp (expand s.dictBytes s.input).length := List.length_take
  refine ⟨_, execDecomp_eq_decompressed hl, ?rlen, fun i hi v hv => State.read_decompressed ?byte, ?frame,
    quiet_decompressed hc _⟩
  case rlen => rw [State.content_rlen_decompressed, Nat.zero_add, hlen]
  case byte => rw [State.remainder_start, List.getElem?_take_of_lt hi, hv]
  case frame => exact hlen ▸ frame_decompressed s ⟨0, 0⟩

/-- R182: input without the byte 07 that fits the capacity is all that DECOMP writes, under any dictionary. -/
theorem State.remainder_of_no_escape (hfit : s.lenOp ≤ s.capOp) (hin : ∀ i, i < s.lenOp → s.inByte i ≠ 0x07#8) :
    s.remainder ⟨0, 0⟩ = s.input := by
  have hescape : ∀ b ∈ s.input, b ≠ 0x07#8 := by
    intro b hb
    obtain ⟨i, hi, rfl⟩ := List.mem_map.1 hb
    rw [Nat.zero_add]
    exact hin i (List.mem_range.1 hi)
  rw [State.remainder_start, expand_of_no_escape _ hescape,
    List.take_of_length_le (by rwa [State.input, State.length_inBytes])]

/-- Settles O28: without the byte 07 the closed form writes the input whatever DICT holds, and it keeps DICT. -/
theorem decompPassThrough : Obligations.DecompPassThrough := by
  intro s hl hfit hin
  have hrem := State.remainder_of_no_escape hfit hin
  refine ⟨_, execDecomp_eq_decompressed hl, ?rlen, fun i hi => State.read_decompressed (c := ⟨0, 0⟩) ?byte,
    fun i v => ?dict⟩
  case rlen => rw [State.content_rlen_decompressed, hrem, State.input, State.length_inBytes, Nat.zero_add]
  case byte =>
    rw [hrem, List.getElem?_eq_some_iff]
    exact ⟨by rwa [State.input, State.length_inBytes], by simp [State.input]⟩
  case dict =>
    have hl' : (s.setDict i v).Launchable := SameRegions.launchable (s := s) ⟨rfl, rfl, rfl, rfl⟩ hl
    have hrem' : (s.setDict i v).remainder ⟨0, 0⟩ = s.remainder ⟨0, 0⟩ :=
      (State.remainder_of_no_escape (s := s.setDict i v) hfit hin).trans hrem.symm
    refine (execDecomp_eq_decompressed hl').trans (congrArg Host.Outcome.next ?_)
    rw [State.decompressed, State.decompressed, hrem']
    rfl

/-! ## The bound -/

/-- R181: a token expands each of its bytes to at most 15/2 bytes; RUN of count 15 reaches it. -/
theorem two_mul_length_expand_le (D : BitVec 4 → Byte) (bs : List Byte) :
    2 * (expand D bs).length ≤ 15 * bs.length := by
  induction bs using expand.induct with
  | case1 => simp [expand]
  | case2 b => simp [expand]
  | case3 r ih =>
    rw [expand_esclit]
    simp only [List.length_cons]
    omega
  | case4 B r hB ih =>
    have hcount : (highNibble B).toNat < 16 := (highNibble B).isLt
    rw [expand_run D hB]
    simp only [List.length_append, List.length_replicate, List.length_cons]
    omega
  | case5 b B r hb ih =>
    rw [expand_lit D hb]
    simp only [List.length_cons] at ih ⊢
    omega

/-- The stream of one longest RUN for each index. -/
def longestRuns (ns : List (BitVec 4)) : List Byte := ns.flatMap fun n => encode (.run 15#4 n)

theorem longestRuns_cons (n : BitVec 4) (ns : List (BitVec 4)) :
    longestRuns (n :: ns) = 0x07#8 :: runByte 15#4 n :: longestRuns ns := rfl

theorem length_longestRuns (ns : List (BitVec 4)) : (longestRuns ns).length = 2 * ns.length := by
  induction ns with
  | nil => rfl
  | cons n ns ih => rw [longestRuns_cons, List.length_cons, List.length_cons, ih, List.length_cons]; omega

/-- R181: each longest RUN expands to 15 bytes. -/
theorem length_expand_longestRuns (D : BitVec 4 → Byte) (ns : List (BitVec 4)) :
    (expand D (longestRuns ns)).length = 15 * ns.length := by
  induction ns with
  | nil => rfl
  | cons n ns ih =>
    have hbyte : runByte 15#4 n ≠ 0x00#8 := fun h => absurd (runByte_eq_zero_iff.1 h).1 (by decide)
    rw [longestRuns_cons, expand_run D hbyte, highNibble_runByte, List.length_append, List.length_replicate, ih,
      List.length_cons, Nat.mul_succ, Nat.add_comm]
    rfl

/-- Settles O29: the bound is twice the length against 15 bytes for two, and longest runs meet it with equality. -/
theorem expansionBound : Obligations.ExpansionBound := by
  refine ⟨fun D bs => ?bound, fun D ns => ?reached⟩
  case bound =>
    have h := two_mul_length_expand_le D bs
    omega
  case reached =>
    show (expand D (longestRuns ns)).length = 15 * (longestRuns ns).length / 2
    rw [length_expand_longestRuns, length_longestRuns]
    omega

end Sys2Proof.Machine
end

section
/-! PROOFS. What one host action on the register file does (`spec/44_host_and_pipeline.md` R190, R191): a write replaces
one register, a read answers what stands in one, and nothing else is ever performed. -/

namespace Sys2Proof.Machine

variable {s t u : State}

/-! ## Frames -/

/-- R12: two changes one after the other change what either of them changes. -/
theorem Frame.trans {regs regs' all : List Reg} {bytes bytes' written : Nat → Prop} (h : Frame s t regs bytes)
    (h' : Frame t u regs' bytes') (hregs : regs ++ regs' ⊆ all) (hbytes : ∀ x, bytes x ∨ bytes' x → written x) :
    Frame s u all written where
  regs_same := fun r hr => by
    obtain ⟨hr, hr'⟩ := not_or.1 (mt List.mem_append.2 fun hmem => hr (hregs hmem))
    exact (h'.regs_same r hr').trans (h.regs_same r hr)
  mem_same := fun x hx => by
    obtain ⟨hx, hx'⟩ := not_or.1 (mt (hbytes x) hx)
    exact (h'.mem_same x hx').trans (h.mem_same x hx)

theorem frame_nextDraw (s : State) : Frame s s.nextDraw [] noBytes :=
  ⟨fun _ _ => State.content_nextDraw _, fun _ _ => rfl⟩

/-! ## Writes -/

/-- R191: a register write reaches no other register; the entries of DICT are registers of their own (R27). -/
theorem State.content_writeReg_of_ne {r reg : Reg} (h : reg ≠ r) (v : Nat) :
    (s.writeReg r v).content reg = s.content reg := by
  cases r with
  | key | lfsr | src | len | dst | cap => cases reg <;> first | exact absurd rfl h | rfl
  | dict i =>
    cases reg with
    | dict j =>
      have hne : ¬ i = j := by rintro rfl; exact h rfl
      simp only [State.writeReg, State.content, State.dictEntry_setDict, if_neg hne]
    | _ => rfl
  | cmd | sum | rlen | valid | comp | enc | csum | ckval | hlen | rej | ckmatch => rfl

/-- R191: a register write of a value that fits leaves that value. -/
theorem State.content_writeReg {r : Reg} {v : Nat} (hw : r.hostWrites = true) (hr : r ≠ .cmd) (hv : v < 2 ^ r.width) :
    (s.writeReg r v).content r = (v, true) := by
  cases r with
  | key | lfsr => exact Prod.ext (Nat.mod_eq_of_lt hv) rfl
  | src | len | dst | cap => rfl
  | dict i =>
    have hbyte : (BitVec.ofNat 8 v).toNat = v := Nat.mod_eq_of_lt hv
    simp only [State.writeReg, State.content, State.dictEntry_setDict, if_true, Held.put_val, Held.put_known, hbyte]
  | cmd => exact absurd rfl hr
  | sum | rlen | valid | comp | enc | csum | ckval | hlen | rej | ckmatch => cases hw

theorem frame_writeReg (s : State) (r : Reg) (v : Nat) : Frame s (s.writeReg r v) [r] noBytes where
  regs_same := fun _ hreg => State.content_writeReg_of_ne (mt List.mem_singleton.2 hreg) v
  mem_same := fun _ _ => by cases r <;> rfl

/-- A register write leaves the host port and the cursors. -/
theorem quiet_writeReg (s : State) (r : Reg) (v : Nat) : Quiet s (s.writeReg r v) := by
  cases r <;> exact ⟨⟨rfl, rfl, rfl⟩, rfl⟩

/-- R190: the host's write to a register goes on, in a new draw. -/
theorem hostStep_writeReg {r : Reg} {v : Nat} (hw : r.hostWrites = true) (hr : r ≠ .cmd) (hv : v < 2 ^ r.width)
    (s : State) : hostStep (.writeReg r v) s = .next (s.nextDraw.writeReg r v) := by
  simp only [hostStep, hostAct, hostWriteReg, if_pos hw, if_pos ((Laws.fits_iff r v).2 hv), if_neg hr]

/-- Settles O48: the write goes on, and it is one update of the register in a new draw. -/
theorem hostWriteRegister : Obligations.HostWriteRegister := by
  intro s r v hw hr hv
  obtain ⟨hport, hcursors⟩ := quiet_writeReg s.nextDraw r v
  exact ⟨_, hostStep_writeReg hw hr hv s, State.content_writeReg hw hr hv,
    (frame_nextDraw s).trans (frame_writeReg s.nextDraw r v) (List.Subset.refl _) fun _ => Or.rec id id,
    hcursors, hport.pending, hport.answers, hport.draws⟩

/-! ## Reads -/

/-- R191: where a register holds a value, that is what the host reads. -/
theorem State.readReg_of_known {r : Reg} (h : (s.content r).2 = true) : s.readReg r = (s.content r).1 := by
  cases r with
  | key | lfsr | sum | ckval | dict _ => exact congrArg BitVec.toNat (Held.observe_known _ _ h)
  | src | len | dst | cap | rlen | hlen => exact Held.observe_known _ _ h
  | comp | enc | csum => exact congrArg Bool.toNat (Held.observe_known _ _ h)
  | valid | rej => rfl
  | ckmatch => exact congrArg Bool.toNat (if_pos h)
  | cmd => cases h

/-- R20: what the host reads is a number of the register's width, free values included. -/
theorem State.Inv.readReg_lt (h : s.Inv) (draw : Nat) (r : Reg) : (s.redrawn draw).readReg r < 2 ^ r.width := by
  have hsize : ∀ c : Held Nat, ∀ reg, c.val ∈ [s.src.val, s.len.val, s.dst.val, s.cap.val, s.rlen.val, s.hlen.val] →
      c.observe (Config.freeSize draw reg) < Config.space := fun c reg hc =>
    Held.observe_lt (h.sizes _ hc) (Laws.freeSize_lt _ _)
  cases r with
  | key | lfsr | sum | ckval | rej | dict _ => exact BitVec.isLt _
  | src | len | dst | cap | rlen | hlen => exact hsize _ _ (by simp [State.redrawn])
  | valid | comp | enc | csum | ckmatch => exact Bool.toNat_lt _
  | cmd => exact Nat.two_pow_pos _

/-- R38: every register but CMD can be read. -/
theorem Reg.hostReads_of_ne_cmd {r : Reg} (h : r ≠ .cmd) : r.hostReads = true := bne_iff_ne.2 h

/-- Settles O49: the read answers what the register shows in a new draw, and an answer is no state of the chip. -/
theorem hostReadRegister : Obligations.HostReadRegister := by
  intro s r hr
  refine ⟨_, _, hostStep_readReg (Reg.hostReads_of_ne_cmd hr) s, rfl, fun hknown => ?_, fun hinv => ?_,
    frame_nextDraw_answer s _, rfl, rfl, rfl⟩
  · rw [← State.content_nextDraw] at hknown ⊢
    exact State.readReg_of_known hknown
  · exact hinv.readReg_lt (s.draws + 1) r

/-! ## Actions that are not defined -/

/-- R102: a code whose command goes on is one of the five. -/
theorem isCommandCode_of_exec_next {c : BitVec 3} (h : exec (decodeCommand c) s = .next t) :
    isCommandCode c.toNat = true := by
  have hcode : ∀ c : BitVec 3, decodeCommand c ∈ commands → isCommandCode c.toNat = true := by decide
  obtain hcommand | ⟨r, hrefused⟩ := decodeCommand_cases c
  · exact hcode c hcommand
  · rw [hrefused] at h
    cases h

/-- R190: the host actions that go on are among those the column "defined when" names. -/
theorem wf_of_hostAct_next {a : HostAction} (h : hostAct a s = .next t) : a.wf = true := by
  obtain ⟨r, v, rfl, hr, hw, hv, -⟩ | ⟨c, ha, hexec⟩ | ⟨r, rfl, hr, -⟩ | ⟨x, b, rfl, hx, -⟩ | ⟨x, rfl, hx, -⟩ :=
    hostAct_next h
  · simp [HostAction.wf, hw, (Laws.fits_iff r v).2 hv, hr]
  · have hcode := isCommandCode_of_exec_next hexec
    obtain rfl | rfl := ha
    · exact hcode
    · simp [HostAction.wf, Reg.hostWrites, (Laws.fits_iff .cmd _).2 c.isLt, hcode]
  · exact hr
  · exact (Laws.inSpace_iff _).2 hx
  · exact (Laws.inSpace_iff _).2 hx

/-- Settles O51: what goes on is defined. -/
theorem undefinedActionsNotPerformed : Obligations.UndefinedActionsNotPerformed := by
  intro a s t hwf h
  rw [wf_of_hostAct_next h] at hwf
  cases hwf

end Sys2Proof.Machine
end

section
/-! PROOFS. Sequences of host actions (`spec/44_host_and_pipeline.md` R190, R196): what a sequence carries along, the
commands on the regions the host sets up, and KEYGEN. -/

namespace Sys2Proof.Machine

variable {s t u : State} {a n b m : Nat} {bs : List Byte}

/-! ## Bytes in MEM -/

theorem State.Holds.append {xs ys : List Byte} (h : s.Holds a (xs ++ ys)) : s.Holds (a + xs.length) ys := by
  intro i hi
  rw [Nat.add_assoc, h (xs.length + i) (by simpa using hi), List.getElem_append_right (Nat.le_add_right _ _)]
  simp

/-- What MEM holds stays where no byte changes. -/
theorem State.Holds.of_frame {regs : List Reg} (h : s.Holds a bs) (hf : Frame s t regs noBytes) : t.Holds a bs :=
  fun i hi => (hf.mem_same (a + i) id).trans (h i hi)

/-- R63: a command whose input region holds `bs` gets those bytes. -/
theorem State.Holds.inByte (h : s.Holds s.srcOp bs) {i : Nat} (hi : i < bs.length) : s.inByte i = bs[i] :=
  State.byteAt_written (h i hi)

theorem State.Holds.inBytes (h : s.Holds s.srcOp bs) : s.inBytes 0 bs.length = bs :=
  List.ext_getElem (State.length_inBytes _ _) fun i _ hi => by
    rw [State.getElem_inBytes, Nat.zero_add, h.inByte hi]

/-! ## What a register's content says -/

theorem Held.observe_of_toNat {w : Nat} {c : Held (BitVec w)} {v : BitVec w}
    (h : (c.val.toNat, c.known) = (v.toNat, true)) (free : BitVec w) : c.observe free = v := by
  obtain ⟨hval, hknown⟩ := Prod.mk.inj h
  rw [Held.observe_known _ _ hknown, BitVec.eq_of_toNat_eq hval]

/-- R35: CKMATCH says whether SUM and CKVAL are the same number. -/
theorem State.content_ckmatch {x k : Word} (hsum : s.content .sum = (x.toNat, true))
    (hckval : s.content .ckval = (k.toNat, true)) : s.content .ckmatch = ((x == k).toNat, true) := by
  obtain ⟨hsum, hsumKnown⟩ := Prod.mk.inj hsum
  obtain ⟨hckval, hckvalKnown⟩ := Prod.mk.inj hckval
  simp only [State.content, hsumKnown, hckvalKnown, BitVec.eq_of_toNat_eq hsum, BitVec.eq_of_toNat_eq hckval,
    Bool.and_self]

/-! ## What the host carries from action to action -/

/-- What a sequence of host actions leaves: all registers but `regs` and all bytes but `bytes`, the cursors, and what is
pending. -/
structure HostFrame (s t : State) (regs : List Reg) (bytes : Nat → Prop) : Prop extends Frame s t regs bytes where
  cursors : t.cursors = s.cursors
  pending : t.pending = s.pending

/-- R12: two sequences one after the other change what either of them changes. -/
theorem HostFrame.trans {regs regs' all : List Reg} {bytes bytes' written : Nat → Prop}
    (h : HostFrame s t regs bytes) (h' : HostFrame t u regs' bytes') (hregs : regs ++ regs' ⊆ all := by decide)
    (hbytes : ∀ x, bytes x ∨ bytes' x → written x := by simp [noBytes]) : HostFrame s u all written :=
  ⟨h.toFrame.trans h'.toFrame hregs hbytes, h'.cursors.trans h.cursors, h'.pending.trans h.pending⟩

/-- What a sequence of no action leaves, and so what any larger frame allows. -/
theorem HostFrame.refl (s : State) {regs : List Reg} {bytes : Nat → Prop} : HostFrame s s regs bytes :=
  ⟨⟨fun _ _ => rfl, fun _ _ => rfl⟩, rfl, rfl⟩

/-- A command that leaves the host port and the cursors. -/
theorem hostFrame_of_quiet {regs : List Reg} {bytes : Nat → Prop} (hf : Frame s t regs bytes) (hq : Quiet s t) :
    HostFrame s t regs bytes := ⟨hf, hq.cursors, hq.port.pending⟩

/-- Two sequences that reach no byte, with the registers of either listed one after the other. -/
theorem HostFrame.append {regs regs' : List Reg} (h : HostFrame s t regs noBytes) (h' : HostFrame t u regs' noBytes) :
    HostFrame s u (regs ++ regs') noBytes :=
  h.trans h' (List.Subset.refl _)

theorem hostFrame_nextDraw (s : State) : HostFrame s s.nextDraw [] noBytes := ⟨frame_nextDraw s, rfl, rfl⟩

/-- The state after a host write to a register. -/
def State.written (s : State) (r : Reg) (v : Nat) : State := s.nextDraw.writeReg r v

theorem hostFrame_written (s : State) (r : Reg) (v : Nat) : HostFrame s (s.written r v) [r] noBytes :=
  (hostFrame_nextDraw s).append (hostFrame_of_quiet (frame_writeReg s.nextDraw r v) (quiet_writeReg s.nextDraw r v))

/-- R105: the host reads the value a register holds, and its read changes nothing. -/
theorem hostRd_of_content {r : Reg} {v : Nat} (h : s.content r = (v, true)) :
    ∃ t, hostRd r s = .next (v, t) ∧ HostFrame s t [] noBytes := by
  have hr : r ≠ .cmd := by rintro rfl; cases h
  obtain ⟨t, v', hstep, hanswers, hvalue, -, hframe, hcursors, hpending, -⟩ := hostReadRegister s r hr
  have hv : v' = v := by simpa only [h, true_imp_iff] using hvalue
  refine ⟨t, ?_, hframe, hcursors, hpending⟩
  rw [hostRd, hstep, andThen_next, hanswers, hv]
  rfl

/-! ## Commands on the regions the host sets up -/

/-- A region the host can set up: its address and its length fit their registers (R190), and it is inside MEM (R64). -/
structure RegionFits (a n : Nat) : Prop where
  address : a < Config.space
  size : n < Config.space
  range : a + n ≤ Config.space

/-- The state in which a command runs that the host issues on the `n` input bytes at `a`. -/
def State.onInput (s : State) (a n : Nat) : State := ((s.written .src a).written .len n).nextDraw

/-- The state in which a command runs that the host issues on `n` input bytes at `a` and `m` output bytes at `b`. -/
def State.onRegions (s : State) (a n b m : Nat) : State :=
  ((((s.written .src a).written .len n).written .dst b).written .cap m).nextDraw

/-! The operands of these commands are what the host has written. -/

@[simp] theorem State.onInput_srcOp : (s.onInput a n).srcOp = a := rfl
@[simp] theorem State.onInput_lenOp : (s.onInput a n).lenOp = n := rfl
@[simp] theorem State.onRegions_srcOp : (s.onRegions a n b m).srcOp = a := rfl
@[simp] theorem State.onRegions_lenOp : (s.onRegions a n b m).lenOp = n := rfl
@[simp] theorem State.onRegions_dstOp : (s.onRegions a n b m).dstOp = b := rfl
@[simp] theorem State.onRegions_capOp : (s.onRegions a n b m).capOp = m := rfl

theorem State.inputInRange_onInput (h : a + n ≤ Config.space) : (s.onInput a n).InputInRange := by
  simpa only [State.InputInRange, State.onInput_srcOp, State.onInput_lenOp] using h

/-- R63: the input bytes are those that MEM holds there. -/
theorem State.inBytes_onInput (hs : s.Holds a bs) : (s.onInput a bs.length).inBytes 0 bs.length = bs :=
  State.Holds.inBytes (s := s.onInput a bs.length) hs

/-- R64, R65: regions inside MEM that lie one behind the other can be launched on. -/
theorem State.launchable_onRegions (hin : RegionFits a n) (hout : RegionFits b m)
    (hapart : b + m ≤ a ∨ a + n ≤ b) : (s.onRegions a n b m).Launchable where
  input := by simpa only [State.InputInRange, State.onRegions_srcOp, State.onRegions_lenOp] using hin.range
  output := by simpa only [State.OutputInRange, State.onRegions_dstOp, State.onRegions_capOp] using hout.range
  disjoint := fun i j hi hj => by
    simp only [State.onRegions_srcOp, State.onRegions_lenOp, State.onRegions_dstOp, State.onRegions_capOp] at *
    omega

theorem andThen_next_right (o : Result) : andThen o .next = o := by cases o <;> rfl

/-- R190, R193: the host sets up the input region and issues a command. -/
theorem hostSteps_onInput (hin : RegionFits a n) (c : BitVec 3) (s : State) :
    hostSteps [.writeReg .src a, .writeReg .len n, .issue c] s = exec (decodeCommand c) (s.onInput a n) := by
  simp only [hostSteps, hostStep_writeReg (r := .src) rfl nofun hin.address,
    hostStep_writeReg (r := .len) rfl nofun hin.size, andThen_next, hostStep_issue, andThen_next_right, State.onInput,
    State.written]

/-- R190, R193: the host sets up both regions and issues a command. -/
theorem hostSteps_onRegions (hin : RegionFits a n) (hout : RegionFits b m) (c : BitVec 3) (s : State) :
    hostSteps [.writeReg .src a, .writeReg .len n, .writeReg .dst b, .writeReg .cap m, .issue c] s =
      exec (decodeCommand c) (s.onRegions a n b m) := by
  simp only [hostSteps, hostStep_writeReg (r := .src) rfl nofun hin.address,
    hostStep_writeReg (r := .len) rfl nofun hin.size,
    hostStep_writeReg (r := .dst) rfl nofun hout.address, hostStep_writeReg (r := .cap) rfl nofun hout.size,
    andThen_next, hostStep_issue, andThen_next_right, State.onRegions, State.written]

theorem hostFrame_onInput (s : State) (a n : Nat) : HostFrame s (s.onInput a n) [.src, .len] noBytes :=
  ((hostFrame_written s .src a).append (hostFrame_written _ .len n)).append (hostFrame_nextDraw _)

theorem hostFrame_onRegions (s : State) (a n b m : Nat) :
    HostFrame s (s.onRegions a n b m) [.src, .len, .dst, .cap] noBytes :=
  ((((hostFrame_written s .src a).append (hostFrame_written _ .len n)).append (hostFrame_written _ .dst b)).append
    (hostFrame_written _ .cap m)).append (hostFrame_nextDraw _)

/-! ## CKSUM and KEYGEN -/

/-- R141: the host has the checksum of bytes that MEM holds computed. -/
theorem hostSteps_cksum (hin : RegionFits a bs.length) (hs : s.Holds a bs) :
    ∃ t, hostSteps [.writeReg .src a, .writeReg .len bs.length, .issue 2#3] s = .next t ∧
      t.content .sum = ((sum16 bs).toNat, true) ∧ t.content .src = (a, true) ∧ t.content .len = (bs.length, true) ∧
      HostFrame s t [.src, .len, .sum, .ckmatch] noBytes := by
  have hexec := execCksum_runs (State.inputInRange_onInput (s := s) hin.range)
  rw [State.onInput_lenOp, State.inBytes_onInput hs] at hexec
  exact ⟨_, (hostSteps_onInput hin 2#3 s).trans hexec, rfl, rfl, rfl,
    (hostFrame_onInput s a _).trans (hostFrame_of_quiet (frame_setSum _ _) (quiet_setSum _ _))⟩

/-- R196: KEYGEN, with the checksum as `sum16` has it. -/
theorem keygen_of_holds (hin : RegionFits a bs.length) (hs : s.Holds a bs) :
    ∃ t, keygen a bs.length s = .next t ∧ t.content .key = ((sum16 bs).toNat, true) ∧
      t.content .sum = ((sum16 bs).toNat, true) ∧ t.content .src = (a, true) ∧ t.content .len = (bs.length, true) ∧
      HostFrame s t [.key, .sum, .src, .len, .ckmatch] noBytes := by
  obtain ⟨t₁, hcksum, hsum, hsrc, hlen, hf₁⟩ := hostSteps_cksum hin hs
  obtain ⟨t₂, hread, hf₂⟩ := hostRd_of_content hsum
  obtain ⟨t₃, hwrite, hkey, hf₃, hcursors, hpending, -⟩ :=
    hostWriteRegister t₂ .key (sum16 bs).toNat rfl nofun (sum16 bs).isLt
  have hf₁₃ : HostFrame t₁ t₃ [.key] noBytes := hf₂.trans ⟨hf₃, hcursors, hpending⟩
  have hkept : ∀ {r}, r ≠ .key → t₃.content r = t₁.content r := fun h => hf₁₃.regs_same _ (by simpa using h)
  refine ⟨t₃, ?_, hkey, (hkept (r := .sum) nofun).trans hsum, (hkept (r := .src) nofun).trans hsrc,
    (hkept (r := .len) nofun).trans hlen, hf₁.trans hf₁₃⟩
  simp only [keygen, hcksum, hread, hwrite, andThen_next]

/-- Settles O57: the checksum is the byte sum modulo 65536. -/
theorem keygenResult : Obligations.KeygenResult := by
  intro s P pw hP hlen hfit hs
  obtain ⟨t, hrun, hkey, hsum, hsrc, hlen, hf⟩ := keygen_of_holds ⟨hP, hlen, hfit⟩ hs
  rw [toNat_sum16] at hkey hsum
  exact ⟨t, hrun, hkey, hsum, hsrc, hlen, hf.toFrame, hf.cursors, hf.pending⟩

end Sys2Proof.Machine
end

section
/-! PROOFS. UNPACK (`spec/44_host_and_pipeline.md` R194, R195, R198): the header decoder on the first 22 bytes of a
container, the stages of UNPACK one by one, and its three ends. -/

namespace Sys2Proof

/-! ## The first 22 bytes of a container -/

/-- R91: the number of header bytes. -/
theorem length_encodeHeader (h : Header) :
    (encodeHeader h).length = 4 + 16 * h.comp.toNat + 2 * h.csum.toNat := Laws.EncodedLength.header h

theorem takeDict_eq_none_iff {c : Bool} {bs : List Byte} : takeDict c bs = none ↔ c = true ∧ bs.length < 16 := by
  cases c <;> simp [takeDict]

theorem takeCksum_eq_none_iff {k : Bool} {bs : List Byte} : takeCksum k bs = none ↔ k = true ∧ bs.length < 2 := by
  match k, bs with
  | false, _ => simp [takeCksum]
  | true, [] | true, [_] | true, _ :: _ :: _ => simp [takeCksum]

/-- R125: the dictionary field is at most 16 bytes, so 18 bytes decide it. -/
theorem takeDict_take {c : Bool} {bs rest : List Byte} {d : Option (Vector Byte 16)}
    (h : takeDict c bs = some (d, rest)) :
    takeDict c (bs.take 18) = some (d, rest.take (18 - (encodeDict d).length)) := by
  obtain ⟨hc, rfl⟩ := takeDict_eq_some_iff.1 h
  have hlen : (encodeDict d).length ≤ 18 := by cases d <;> simp [encodeDict]
  exact takeDict_eq_some_iff.2 ⟨hc, by rw [List.take_append, List.take_of_length_le hlen]⟩

/-- R131: a header that is rejected is rejected by its first 22 bytes, with the same cause. -/
theorem decodeHeader_take_error {bs : List Byte} {cause : HeaderReject} (h : decodeHeader bs = .error cause) :
    decodeHeader (bs.take 22) = .error cause := by
  match bs with
  | [] | [_] | [_, _] | [_, _, _] => exact h
  | m0 :: m1 :: v :: f :: rest =>
    show decodeHeader (m0 :: m1 :: v :: f :: rest.take 18) = .error cause
    by_cases hmagic : m0 = 0x02#8 ∧ m1 = 0x13#8
    · obtain ⟨rfl, rfl⟩ := hmagic
      by_cases hversion : v = 0x01#8
      · subst hversion
        cases hdict : takeDict (flagComp f) rest with
        | none =>
          have hdict' : takeDict (flagComp f) (rest.take 18) = none :=
            takeDict_eq_none_iff.2 ((takeDict_eq_none_iff.1 hdict).imp_right (List.length_take_le' _ _).trans_lt)
          rwa [decodeHeader_dictTruncated hdict, ← decodeHeader_dictTruncated hdict'] at h
        | some p =>
          obtain ⟨d, tail⟩ := p
          cases hcksum : takeCksum (flagCsum f) tail with
          | none =>
            have hcksum' : takeCksum (flagCsum f) (tail.take (18 - (encodeDict d).length)) = none :=
              takeCksum_eq_none_iff.2
                ((takeCksum_eq_none_iff.1 hcksum).imp_right (List.length_take_le' _ _).trans_lt)
            rwa [decodeHeader_cksumTruncated hdict hcksum,
              ← decodeHeader_cksumTruncated (takeDict_take hdict) hcksum'] at h
          | some q =>
            rw [decodeHeader_accepts hdict hcksum] at h
            cases h
      · rwa [decodeHeader_badVersion hversion, ← decodeHeader_badVersion hversion f (rest.take 18)] at h
    · have hbad := not_and_or.1 hmagic
      rwa [decodeHeader_badMagic hbad, ← decodeHeader_badMagic hbad v f (rest.take 18)] at h

/-- R131: a header that is accepted is accepted from its first 22 bytes. -/
theorem decodeHeader_take_ok {bs payload : List Byte} {h : Header} (hdec : decodeHeader bs = .ok (h, payload)) :
    ∃ rest, decodeHeader (bs.take 22) = .ok (h, rest) := by
  obtain rfl := decodeHeader_eq_ok_iff.1 hdec
  have hlen : (encodeHeader h).length ≤ 22 := by
    have hcomp := Bool.toNat_le h.comp
    have hcsum := Bool.toNat_le h.csum
    rw [length_encodeHeader]
    omega
  exact ⟨_, decodeHeader_eq_ok_iff.2 (by rw [List.take_append, List.take_of_length_le hlen])⟩

end Sys2Proof

namespace Sys2Proof.Machine

variable {s t : State} {a n b m : Nat} {bs : List Byte}

/-! ## The header stage -/

/-- R131: PARSE on a container decodes its first 22 bytes. -/
theorem State.headerBytes_onInput (hs : s.Holds a bs) : (s.onInput a bs.length).headerBytes = bs.take 22 := by
  conv_rhs => rw [← State.inBytes_onInput hs]
  rw [State.take_inBytes, Nat.min_comm]
  rfl

/-- R29: a PARSE that the host issues on the input region writes the record and nothing else. -/
theorem hostFrame_parsed (s : State) (a n : Nat) (r : Record) :
    HostFrame s ((s.onInput a n).setRecord r) (.src :: .len :: recordRegs) noBytes :=
  (hostFrame_onInput s a n).trans (hostFrame_of_quiet (frame_setRecord _ _) (quiet_setRecord _ _))

/-- Settles O58: VALID reads as 0, and REJ as the cause. -/
theorem unpackHeaderError : Obligations.UnpackHeaderError := by
  intro s A P PN W O OC cont cause hA hN hfit hs hdec
  have hdec' : decodeHeader (s.onInput A cont.length).headerBytes = .error cause := by
    rw [State.headerBytes_onInput hs, decodeHeader_take_error hdec]
  have hparse : hostSteps [.writeReg .src A, .writeReg .len cont.length, .issue 1#3] s =
      .next ((s.onInput A cont.length).reject cause.code) :=
    (hostSteps_onInput ⟨hA, hN, hfit⟩ 1#3 s).trans (execParse_of_error (State.inputInRange_onInput hfit) hdec')
  obtain ⟨t₁, hvalid, hf₁⟩ := hostRd_of_content
    (show ((s.onInput A cont.length).reject cause.code).content .valid = (0, true) from rfl)
  obtain ⟨t₂, hrej, hf₂⟩ := hostRd_of_content
    (show t₁.content .rej = (cause.code.toNat, true) from hf₁.regs_same .rej nofun)
  refine ⟨t₂, ?_, ((hostFrame_parsed s A cont.length _).trans (hf₁.append hf₂)).toFrame⟩
  simp only [unpack, hparse, hvalid, hrej, andThen_next, if_true]

/-- R27: DICT holds the dictionary of `h`, if `h` has one. -/
def State.HoldsDict (s : State) (h : Header) : Prop :=
  ∀ d, h.dict = some d → ∀ i : BitVec 4, s.content (.dict i) = ((d[i.toNat]'i.isLt).toNat, true)

/-- R32: CKVAL holds the checksum of `h`, if `h` has one. -/
def State.HoldsCksum (s : State) (h : Header) : Prop :=
  ∀ k, h.cksum = some k → s.content .ckval = (k.toNat, true)

theorem State.HoldsDict.of_frame {h : Header} {regs : List Reg} {bytes : Nat → Prop} (hd : s.HoldsDict h)
    (hf : Frame s t regs bytes) (hregs : ∀ i, Reg.dict i ∉ regs := by simp) : t.HoldsDict h :=
  fun d hdict i => (hf.regs_same _ (hregs i)).trans (hd d hdict i)

/-- R194: UNPACK behind its header stage, for a container with the header `h` and `n` payload bytes at `a`. -/
def unpackPayload (h : Header) (a n P PN W O OC : Nat) (s : State) : Host.Outcome (UnpackEnd × State) Fault Refusal :=
  andThen (unpackCheck h.csum.toNat a n s) fun ok =>
  if ok.1 then
    andThen (unpackDecrypt h.enc.toNat a n P PN W ok.2) fun d =>
    andThen (unpackDecomp h.comp.toNat d.1.1 d.1.2 O OC d.2) fun z => .next (.data z.1.1 z.1.2, z.2)
  else .next (.integrityError, ok.2)

/-- R194: of an accepted container UNPACK reads VALID as 1, then HLEN and the flags. -/
theorem unpack_of_accepted {A P PN W O OC : Nat} {cont payload : List Byte} {h : Header}
    (hin : RegionFits A cont.length) (hs : s.Holds A cont) (hdec : decodeHeader cont = .ok (h, payload)) :
    ∃ t, unpack A cont.length P PN W O OC s =
        unpackPayload h (A + (encodeHeader h).length) payload.length P PN W O OC t ∧
      t.HoldsDict h ∧ t.HoldsCksum h ∧ HostFrame s t (.src :: .len :: recordRegs) noBytes := by
  obtain ⟨rest, htake⟩ := decodeHeader_take_ok hdec
  obtain rfl := decodeHeader_eq_ok_iff.1 hdec
  obtain ⟨u, hu⟩ : ∃ u, u = (s.onInput A (encodeHeader h ++ payload).length).accept h := ⟨_, rfl⟩
  have hparse : hostSteps [.writeReg .src A, .writeReg .len (encodeHeader h ++ payload).length, .issue 1#3] s =
      .next u := by
    rw [← State.headerBytes_onInput hs] at htake
    exact hu ▸ (hostSteps_onInput hin 1#3 s).trans (execParse_of_ok (State.inputInRange_onInput hin.range) htake)
  have hf₀ : HostFrame s u (.src :: .len :: recordRegs) noBytes := hu ▸ hostFrame_parsed s A _ _
  have hkept : ∀ {t}, HostFrame u t [] noBytes → ∀ r, t.content r = u.content r := fun hf r => hf.regs_same r nofun
  obtain ⟨t₁, hvalid, hf₁⟩ := hostRd_of_content (show u.content .valid = (1, true) by rw [hu]; rfl)
  obtain ⟨t₂, hhlen, hf₂⟩ := hostRd_of_content (v := (encodeHeader h).length)
    ((hkept hf₁ .hlen).trans (by rw [hu, length_encodeHeader]; rfl))
  replace hf₂ := hf₁.append hf₂
  obtain ⟨t₃, hcomp, hf₃⟩ := hostRd_of_content (v := h.comp.toNat) ((hkept hf₂ .comp).trans (by rw [hu]; rfl))
  replace hf₃ := hf₂.append hf₃
  obtain ⟨t₄, henc, hf₄⟩ := hostRd_of_content (v := h.enc.toNat) ((hkept hf₃ .enc).trans (by rw [hu]; rfl))
  replace hf₄ := hf₃.append hf₄
  obtain ⟨t₅, hcsum, hf₅⟩ := hostRd_of_content (v := h.csum.toNat) ((hkept hf₄ .csum).trans (by rw [hu]; rfl))
  replace hf₅ := hf₄.append hf₅
  have hlength : (encodeHeader h ++ payload).length - (encodeHeader h).length = payload.length := by simp
  refine ⟨t₅, ?_, fun d hd i => ?_, fun k hk => ?_, hf₀.trans hf₅⟩
  · simp only [unpack, hparse, hvalid, hhlen, hcomp, henc, hcsum, andThen_next, hlength, unpackPayload, one_ne_zero,
      if_false]
  · rw [hkept hf₅, hu, State.accept_content_dict hd]
  · rw [hkept hf₅, hu, State.accept_content_ckval hk]

/-! ## The checksum stage -/

/-- R194: where the header has a checksum, the stage answers whether it is the payload's. -/
theorem unpackCheck_checksummed {k : Word} (hk : s.content .ckval = (k.toNat, true))
    (hin : RegionFits a bs.length) (hs : s.Holds a bs) :
    ∃ t, unpackCheck 1 a bs.length s = .next (sum16 bs == k, t) ∧
      HostFrame s t [.src, .len, .sum, .ckmatch] noBytes := by
  obtain ⟨t₁, hcksum, hsum, -, -, hf₁⟩ := hostSteps_cksum hin hs
  have hckval : t₁.content .ckval = (k.toNat, true) := (hf₁.regs_same .ckval (by decide)).trans hk
  obtain ⟨t₂, hread, hf₂⟩ := hostRd_of_content (State.content_ckmatch hsum hckval)
  refine ⟨t₂, ?_, hf₁.trans hf₂⟩
  have hbit : ∀ p : Bool, (p.toNat == 1) = p := by decide
  simp only [unpackCheck, hcksum, hread, andThen_next, if_true, hbit]

/-- R194: the checksum stage goes on where the checksum is the payload's, or where there is none. -/
theorem unpackCheck_goes_on {h : Header} (hckval : s.HoldsCksum h) (hsum : ∀ k, h.cksum = some k → sum16 bs = k)
    (hin : h.csum = true → RegionFits a bs.length) (hs : s.Holds a bs) :
    ∃ t, unpackCheck h.csum.toNat a bs.length s = .next (true, t) ∧
      HostFrame s t [.src, .len, .sum, .ckmatch] noBytes := by
  cases hk : h.cksum with
  | none =>
    have hcsum : h.csum = false := by simp [Header.csum, hk]
    exact ⟨s, by rw [hcsum]; rfl, HostFrame.refl s⟩
  | some k =>
    have hcsum : h.csum = true := by simp [Header.csum, hk]
    obtain ⟨t, hcheck, hf⟩ := unpackCheck_checksummed (hckval k hk) (hin hcsum) hs
    rw [beq_iff_eq.2 (hsum k hk)] at hcheck
    exact ⟨t, by rw [hcsum]; exact hcheck, hf⟩

/-- R64, R195: the payload of a container that fits is a region the host can set up, unless it is empty and at the end
of MEM (log 17). -/
theorem regionFits_payload {A : Nat} {xs ys : List Byte} (hN : (xs ++ ys).length < Config.space)
    (hfit : A + (xs ++ ys).length ≤ Config.space) (hlast : ys = [] → A + (xs ++ ys).length < Config.space) :
    RegionFits (A + xs.length) ys.length := by
  rw [List.length_append] at hN hfit hlast
  refine ⟨?_, by omega, by omega⟩
  by_cases hys : ys = []
  · have := hlast hys
    omega
  · have := List.length_pos_iff.2 hys
    omega

/-- Settles O59: the checksum stage answers that the sums differ. -/
theorem unpackIntegrityError : Obligations.UnpackIntegrityError := by
  intro s A P PN W O OC cont payload h k hA hN hfit hlast hs hdec hk hne
  obtain ⟨t₁, hrun, -, hckval, hf₁⟩ := unpack_of_accepted (P := P) (PN := PN) (W := W) (O := O) (OC := OC)
    ⟨hA, hN, hfit⟩ hs hdec
  obtain rfl := decodeHeader_eq_ok_iff.1 hdec
  obtain ⟨t₂, hcheck, hf₂⟩ := unpackCheck_checksummed (hckval k hk) (regionFits_payload hN hfit hlast)
    (hs.of_frame hf₁.toFrame).append
  have hcsum : h.csum.toNat = 1 := by simp [Header.csum, hk]
  refine ⟨t₂, ?_, (hf₁.trans hf₂).toFrame⟩
  rw [hrun, unpackPayload, hcsum, hcheck, andThen_next, beq_false_of_ne hne]
  rfl

/-! ## The cipher stage and the decompression stage -/

/-- R63: the input bytes of a command on both regions are those that MEM holds there. -/
theorem State.holds_onRegions (hs : s.Holds a bs) :
    (s.onRegions a n b m).Holds (s.onRegions a n b m).srcOp bs := by
  rw [State.onRegions_srcOp]
  exact hs.of_frame (hostFrame_onRegions s a n b m).toFrame

/-- R156: DECRYPT of `bs` under the key `k`, into an output region that takes all of it. -/
theorem exec_decrypt_onRegions {k : Word} (hkey : s.content .key = (k.toNat, true)) (hin : RegionFits a bs.length)
    (hs : s.Holds a bs) (hout : RegionFits b bs.length) (hapart : b + bs.length ≤ a ∨ a + bs.length ≤ b) :
    ∃ t, exec .decrypt (s.onRegions a bs.length b bs.length) = .next t ∧ t.content .rlen = (bs.length, true) ∧
      t.Holds b (cipherBytes k bs) ∧
      HostFrame s t [.src, .len, .dst, .cap, .lfsr, .rlen] (bytesAt b bs.length) := by
  have hregions := hostFrame_onRegions s a bs.length b bs.length
  have hholds := State.holds_onRegions (n := bs.length) (b := b) (m := bs.length) hs
  have hkeyOp : (s.onRegions a bs.length b bs.length).keyOp = k :=
    Held.observe_of_toNat ((hregions.regs_same .key (by decide)).trans hkey) _
  obtain ⟨t, hexec, hrlen, -, hbytes, hframe, hquiet⟩ :=
    decryptResult _ (State.launchable_onRegions (s := s) hin hout hapart)
  simp only [State.onRegions_lenOp, State.onRegions_capOp, State.onRegions_dstOp, Nat.min_self, hkeyOp]
    at hrlen hbytes hframe
  refine ⟨t, hexec, hrlen, fun i hi => ?_, hregions.trans (hostFrame_of_quiet hframe hquiet)⟩
  have hi' : i < bs.length := by rwa [length_cipherBytes] at hi
  rw [hbytes i hi', getElem_cipherBytes, hholds.inByte hi']

/-- R176: DECOMP of `bs` under the dictionary `d`. -/
theorem exec_decomp_onRegions {h : Header} {d : Vector Byte 16} (hd : h.dict = some d) (hdict : s.HoldsDict h)
    (hc : s.cursors = none) (hin : RegionFits a bs.length) (hs : s.Holds a bs) (hout : RegionFits b m)
    (hapart : b + m ≤ a ∨ a + bs.length ≤ b) {data : List Byte}
    (hdata : data = (expand (fun i => d[i.toNat]'i.isLt) bs).take m) :
    ∃ t, exec .decomp (s.onRegions a bs.length b m) = .next t ∧ t.content .rlen = (data.length, true) ∧
      t.Holds b data := by
  have hregions := hostFrame_onRegions s a bs.length b m
  have hinput : (s.onRegions a bs.length b m).input = bs := (State.holds_onRegions hs).inBytes
  have hdictBytes : (s.onRegions a bs.length b m).dictBytes = fun i => d[i.toNat]'i.isLt := funext fun i =>
    Held.observe_of_toNat (hdict.of_frame hregions.toFrame (by simp) d hd i) _
  obtain ⟨t, hexec, hrlen, hbytes, -, -⟩ :=
    decompExpands _ (State.launchable_onRegions (s := s) hin hout hapart) (hregions.cursors.trans hc)
  simp only [State.onRegions_capOp, State.onRegions_dstOp, hinput, hdictBytes] at hrlen hbytes
  rw [← List.length_take, ← hdata] at hrlen
  refine ⟨t, hexec, hrlen, fun i hi => ?_⟩
  have him : i < m := by
    rw [hdata, List.length_take] at hi
    omega
  refine hbytes i him _ ?_
  rw [← List.getElem?_take_of_lt him, ← hdata, List.getElem?_eq_getElem hi]

/-- R194, R196: where the header says encrypted, the data goes to the work region, decrypted under the password's key. -/
theorem unpackDecrypt_encrypted {P W : Nat} {pw : List Byte} (hP : RegionFits P pw.length) (hpw : s.Holds P pw)
    (hin : RegionFits a bs.length) (hs : s.Holds a bs) (hout : RegionFits W bs.length)
    (hapart : W + bs.length ≤ a ∨ a + bs.length ≤ W) :
    ∃ t, unpackDecrypt 1 a bs.length P pw.length W s = .next ((W, bs.length), t) ∧
      t.Holds W (cipherBytes (sum16 pw) bs) ∧
      HostFrame s t [.key, .sum, .src, .len, .ckmatch, .dst, .cap, .lfsr, .rlen] (bytesAt W bs.length) := by
  obtain ⟨t₁, hkeygen, hkey, -, -, -, hf₁⟩ := keygen_of_holds hP hpw
  obtain ⟨t₂, hdecrypt, hrlen, hresult, hf₂⟩ :=
    exec_decrypt_onRegions hkey hin (hs.of_frame hf₁.toFrame) hout hapart
  obtain ⟨t₃, hread, hf₃⟩ := hostRd_of_content hrlen
  have hsteps := (hostSteps_onRegions hin hout 4#3 t₁).trans hdecrypt
  have hf₁₂ : HostFrame s t₂ [.key, .sum, .src, .len, .ckmatch, .dst, .cap, .lfsr, .rlen] (bytesAt W bs.length) :=
    hf₁.trans hf₂
  refine ⟨t₃, ?_, hresult.of_frame hf₃.toFrame, hf₁₂.trans hf₃⟩
  simp only [unpackDecrypt, hkeygen, hsteps, hread, andThen_next, if_true]

/-- R194: where the header says compressed, the data goes to the output region, expanded and cut to its capacity. -/
theorem unpackDecomp_compressed {O OC : Nat} {h : Header} {d : Vector Byte 16} (hd : h.dict = some d)
    (hdict : s.HoldsDict h) (hc : s.cursors = none) (hin : RegionFits a bs.length) (hs : s.Holds a bs)
    (hout : RegionFits O OC) (hapart : O + OC ≤ a ∨ a + bs.length ≤ O) {data : List Byte}
    (hdata : data = (expand (fun i => d[i.toNat]'i.isLt) bs).take OC) :
    ∃ t, unpackDecomp 1 a bs.length O OC s = .next ((O, data.length), t) ∧ t.Holds O data := by
  obtain ⟨t₁, hdecomp, hrlen, hresult⟩ := exec_decomp_onRegions hd hdict hc hin hs hout hapart hdata
  obtain ⟨t₂, hread, hf₂⟩ := hostRd_of_content hrlen
  have hsteps := (hostSteps_onRegions hin hout 5#3 s).trans hdecomp
  refine ⟨t₂, ?_, hresult.of_frame hf₂.toFrame⟩
  simp only [unpackDecomp, hsteps, hread, andThen_next, if_true]

/-- R194, R195: the address of the data behind the cipher stage. -/
def cipherAddress (h : Header) (a W : Nat) : Nat := if h.enc then W else a

/-- R194: the cipher stage, encrypted or not. -/
theorem unpackDecrypt_goes_on {h : Header} {P W : Nat} {pw plain : List Byte}
    (henc : h.enc = true → RegionFits P pw.length ∧ s.Holds P pw ∧ RegionFits a bs.length ∧ RegionFits W bs.length ∧
      (W + bs.length ≤ a ∨ a + bs.length ≤ W)) (hs : s.Holds a bs)
    (hplain : plain = if h.enc then cipherBytes (sum16 pw) bs else bs) :
    ∃ t, unpackDecrypt h.enc.toNat a bs.length P pw.length W s = .next ((cipherAddress h a W, plain.length), t) ∧
      t.Holds (cipherAddress h a W) plain ∧
      HostFrame s t [.key, .sum, .src, .len, .ckmatch, .dst, .cap, .lfsr, .rlen] (bytesAt W bs.length) := by
  subst hplain
  cases he : h.enc with
  | false =>
    simp only [cipherAddress, he, Bool.false_eq_true, if_false]
    exact ⟨s, rfl, hs, HostFrame.refl s⟩
  | true =>
    obtain ⟨hP, hpw, hin, hout, hapart⟩ := henc he
    simp only [cipherAddress, he, if_true, length_cipherBytes]
    exact unpackDecrypt_encrypted hP hpw hin hs hout hapart

/-- R195: the data behind the cipher stage lies in a region that the host can set up, apart from the output region. -/
theorem cipherAddress_region {h : Header} {W O OC : Nat} (hin : RegionFits a n) (hout : h.enc = true → RegionFits W n)
    (hapart : O + OC ≤ a ∨ a + n ≤ O) (hapartW : h.enc = true → O + OC ≤ W ∨ W + n ≤ O) :
    RegionFits (cipherAddress h a W) n ∧ (O + OC ≤ cipherAddress h a W ∨ cipherAddress h a W + n ≤ O) := by
  unfold cipherAddress
  split
  · next he => exact ⟨hout he, hapartW he⟩
  · exact ⟨hin, hapart⟩

/-- Settles O60: stage by stage, each on the bytes the one before it leaves. -/
theorem unpackDecodes : Obligations.UnpackDecodes := by
  intro s A P W O OC cont pw payload plain data h hc hA hN hfit hs hdec hsum hlast henc hcomp hplain hdata
  obtain ⟨t₀, hrun, hdict, hckval, hf₀⟩ := unpack_of_accepted (P := P) (PN := pw.length) (W := W) (O := O) (OC := OC)
    ⟨hA, hN, hfit⟩ hs hdec
  obtain rfl := decodeHeader_eq_ok_iff.1 hdec
  have hlength : (encodeHeader h ++ payload).length = (encodeHeader h).length + payload.length := List.length_append
  have hin : (h.csum || h.enc || h.comp) = true → RegionFits (A + (encodeHeader h).length) payload.length :=
    fun hflag => regionFits_payload hN hfit fun hnil => hlast hnil hflag
  have hwork : h.enc = true → RegionFits W payload.length := fun he => by
    obtain ⟨-, -, -, -, hW, hWfit, -⟩ := henc he
    exact ⟨hW, by omega, hWfit⟩
  have hs₀ := (hs.of_frame hf₀.toFrame).append
  obtain ⟨t₁, hcheck, hf₁⟩ := unpackCheck_goes_on hckval hsum (fun hk => hin (by simp [hk])) hs₀
  have hf₀₁ := hf₀.append hf₁
  have hcipher : h.enc = true → RegionFits P pw.length ∧ t₁.Holds P pw ∧
      RegionFits (A + (encodeHeader h).length) payload.length ∧ RegionFits W payload.length ∧
      (W + payload.length ≤ A + (encodeHeader h).length ∨ A + (encodeHeader h).length + payload.length ≤ W) :=
    fun he => by
      obtain ⟨hP, hPlen, hPfit, hpw, -, -, hapart⟩ := henc he
      exact ⟨⟨hP, hPlen, hPfit⟩, hpw.of_frame hf₀₁.toFrame, hin (by simp [he]), hwork he, by omega⟩
  obtain ⟨t₂, hdecrypt, hs₂, hf₂⟩ :=
    unpackDecrypt_goes_on hcipher (hs₀.of_frame hf₁.toFrame) hplain
  rw [hrun, unpackPayload, hcheck, andThen_next, if_pos rfl, hdecrypt, andThen_next]
  cases hd : h.dict with
  | none =>
    have hflag : h.comp = false := by simp [Header.comp, hd]
    obtain rfl : data = plain := by simpa only [hd] using hdata
    refine ⟨cipherAddress h (A + (encodeHeader h).length) W, t₂, by rw [hflag]; rfl, hs₂, ?_⟩
    simp [cipherAddress, length_encodeHeader, hflag, Nat.add_assoc]
  | some d =>
    have hflag : h.comp = true := by simp [Header.comp, hd]
    have hdata : data = (expand (fun i => d[i.toNat]'i.isLt) plain).take OC := by simpa only [hd] using hdata
    obtain ⟨hO, hOC, hOfit, hapart, hapartW⟩ := hcomp hflag
    have hsize : plain.length = payload.length := by rw [hplain]; split <;> simp
    obtain ⟨hregion, hapart⟩ := cipherAddress_region (hin (by simp [hflag])) hwork (by omega) hapartW
    rw [← hsize] at hregion hapart
    have hdict₂ : t₂.HoldsDict h := (hdict.of_frame hf₁.toFrame).of_frame hf₂.toFrame
    obtain ⟨t₃, hdecomp, hs₃⟩ := unpackDecomp_compressed hd hdict₂ (hf₂.cursors.trans (hf₀₁.cursors.trans hc)) hregion
      hs₂ ⟨hO, hOC, hOfit⟩ hapart hdata
    refine ⟨O, t₃, ?_, hs₃, by rw [hflag]; rfl⟩
    rw [hflag, Bool.toNat_true, hdecomp, andThen_next]

end Sys2Proof.Machine
end

section
/-! PROOFS. Failure reporting (`spec/60_exceptions.md` R210): on its region premises a command completes, without them
it is refused for the one that fails, and no row of the opcode table faults. -/

namespace Sys2Proof.Machine

/-! ## What a command can answer -/

/-- R64, R210: PARSE and CKSUM complete, or their input region is out of range. -/
theorem exec_input_command_cases {i : Instr} (hi : i ∈ [Instr.parse, .cksum]) (s : State) :
    (∃ t, exec i s = .next t) ∨ (¬ s.InputInRange ∧ exec i s = .refused .regionsOutOfRange) := by
  simp only [List.mem_cons, List.not_mem_nil, or_false] at hi
  by_cases hin : s.InputInRange
  · left
    obtain rfl | rfl := hi
    · obtain ⟨t, ht, -⟩ := parseVerdict s hin
      exact ⟨t, ht⟩
    · exact ⟨_, execCksum_runs hin⟩
  · right
    obtain rfl | rfl := hi
    · exact ⟨hin, execParse_outOfRange hin⟩
    · exact ⟨hin, execCksum_outOfRange hin⟩

/-- R64, R65, R210: DECRYPT and DECOMP complete, or one of their regions is out of range, or the two overlap. -/
theorem exec_regions_command_cases {i : Instr} (hi : i ∈ [Instr.decrypt, .decomp]) (s : State) :
    (∃ t, exec i s = .next t) ∨
    (¬ (s.InputInRange ∧ s.OutputInRange) ∧ exec i s = .refused .regionsOutOfRange) ∨
    ((s.InputInRange ∧ s.OutputInRange ∧ ¬ s.RegionsDisjoint) ∧ exec i s = .refused .regionsOverlap) := by
  simp only [List.mem_cons, List.not_mem_nil, or_false] at hi
  obtain rfl | rfl := hi
  · exact (execDecrypt_cases s).imp_left fun hl => ⟨_, execDecrypt_eq_decrypted hl⟩
  · exact (execDecomp_cases s).imp_left fun hl => ⟨_, execDecomp_eq_decompressed hl⟩

/-- R40: a token completes, or no DECOMP is running. -/
theorem exec_token_cases (tok : Token) (s : State) :
    (∃ t, exec tok.toInstr s = .next t) ∨ exec tok.toInstr s = .refused .noStreamRunning := by
  cases hc : s.cursors with
  | some c => exact .inl ⟨_, exec_token_running hc tok⟩
  | none => right; rw [exec_token, execToken_eq, State.emit, hc]

/-! ## No fault -/

/-- What completes or is refused does not fault. -/
theorem ne_fault_of_next_or_refused {o : Result} (h : (∃ t, o = .next t) ∨ ∃ r, o = .refused r) (f : Fault) :
    o ≠ .fault f := by
  obtain ⟨t, rfl⟩ | ⟨r, rfl⟩ := h <;> exact nofun

/-- R210: every row of the opcode table completes or is refused. -/
theorem exec_next_or_refused (i : Instr) (s : State) : (∃ t, exec i s = .next t) ∨ ∃ r, exec i s = .refused r := by
  have input {i : Instr} (hi : i ∈ [Instr.parse, .cksum]) : (∃ t, exec i s = .next t) ∨ ∃ r, exec i s = .refused r :=
    (exec_input_command_cases hi s).imp_right fun ⟨_, h⟩ => ⟨_, h⟩
  have regions {i : Instr} (hi : i ∈ [Instr.decrypt, .decomp]) :
      (∃ t, exec i s = .next t) ∨ ∃ r, exec i s = .refused r :=
    (exec_regions_command_cases hi s).imp_right fun
      | .inl ⟨_, h⟩ => ⟨_, h⟩
      | .inr ⟨_, h⟩ => ⟨_, h⟩
  have token (tok : Token) : (∃ t, exec tok.toInstr s = .next t) ∨ ∃ r, exec tok.toInstr s = .refused r :=
    (exec_token_cases tok s).imp_right fun h => ⟨_, h⟩
  obtain ⟨h000, h110, h111⟩ := exec_reserved s
  cases i with
  | parse => exact input (by decide)
  | cksum => exact input (by decide)
  | step => exact .inl ⟨_, rfl⟩
  | decrypt => exact regions (by decide)
  | decomp => exact regions (by decide)
  | reserved000 => exact .inr ⟨_, h000⟩
  | reserved110 => exact .inr ⟨_, h110⟩
  | reserved111 => exact .inr ⟨_, h111⟩
  | lit b => exact token (.lit b)
  | esclit => exact token .esclit
  | run count index => exact token (.run count index)
  | esceof => exact token .esceof
  | header h => exact .inl ⟨_, rfl⟩

/-- Settles O33: every row completes or is refused, STEP always completes, and a refusal of another command is one of
those its region premises leave open. -/
theorem commandsNeverFault : Obligations.CommandsNeverFault := by
  refine ⟨fun i s => ne_fault_of_next_or_refused (exec_next_or_refused i s), fun s r => nofun, ?input, ?regions⟩
  case input =>
    intro i hi s r hrefused
    obtain ⟨t, hnext⟩ | ⟨hout, hrange⟩ := exec_input_command_cases hi s
    · exact absurd (hnext.symm.trans hrefused) nofun
    · cases hrange.symm.trans hrefused
      exact ⟨rfl, hout⟩
  case regions =>
    intro i hi s r hrefused
    obtain ⟨t, hnext⟩ | ⟨hout, hrange⟩ | ⟨hoverlap, hshared⟩ := exec_regions_command_cases hi s
    · exact absurd (hnext.symm.trans hrefused) nofun
    · cases hrange.symm.trans hrefused
      exact .inl ⟨rfl, hout⟩
    · cases hshared.symm.trans hrefused
      exact .inr ⟨rfl, hoverlap⟩

end Sys2Proof.Machine
end

section
/-! PROOFS. The free values have no say where operands are written (`spec/70_reset_and_hazards.md` R242,
`spec/10_state.md` R42): a written operand is the same under every draw, DECOMP sees no DICT entry but those its RUN
tokens name, and a command with equal operands leaves equal contents. -/

namespace Sys2Proof.Machine

variable {s t : State} {d : Nat}

/-! ## Written operands under another draw -/

/-- R37: a register that holds a value shows no free value. -/
theorem Held.observe_eq_of_known {α : Type} {c : Held α} (h : c.known = true) (free free' : α) :
    c.observe free = c.observe free' :=
  (Held.observe_known c free h).trans (Held.observe_known c free' h).symm

theorem State.keyOp_redrawn (h : s.key.known = true) : (s.redrawn d).keyOp = s.keyOp := Held.observe_eq_of_known h _ _

theorem State.lfsrOp_redrawn (h : s.lfsr.known = true) : (s.redrawn d).lfsrOp = s.lfsrOp :=
  Held.observe_eq_of_known h _ _

theorem State.srcOp_redrawn (h : s.src.known = true) : (s.redrawn d).srcOp = s.srcOp := Held.observe_eq_of_known h _ _

theorem State.lenOp_redrawn (h : s.len.known = true) : (s.redrawn d).lenOp = s.lenOp := Held.observe_eq_of_known h _ _

theorem State.dstOp_redrawn (h : s.dst.known = true) : (s.redrawn d).dstOp = s.dstOp := Held.observe_eq_of_known h _ _

theorem State.capOp_redrawn (h : s.cap.known = true) : (s.redrawn d).capOp = s.capOp := Held.observe_eq_of_known h _ _

theorem State.dictOp_redrawn {i : BitVec 4} (h : (s.dictEntry i).known = true) :
    (s.redrawn d).dictOp i = s.dictOp i := Held.observe_eq_of_known h _ _

theorem State.inputInRange_redrawn (hsrc : s.src.known = true) (hlen : s.len.known = true) (h : s.InputInRange) :
    (s.redrawn d).InputInRange := by
  rwa [State.InputInRange, State.srcOp_redrawn hsrc, State.lenOp_redrawn hlen]

theorem sameRegions_redrawn (hsrc : s.src.known = true) (hlen : s.len.known = true) (hdst : s.dst.known = true)
    (hcap : s.cap.known = true) : SameRegions s (s.redrawn d) :=
  ⟨State.srcOp_redrawn hsrc, State.lenOp_redrawn hlen, State.dstOp_redrawn hdst, State.capOp_redrawn hcap⟩

/-- R61: a written byte shows no free value. -/
theorem State.inByte_redrawn {i : Nat} (hsrc : s.src.known = true)
    (h : (Memory.read s.mem (s.srcOp + i)).isSome = true) : (s.redrawn d).inByte i = s.inByte i := by
  obtain ⟨v, hv⟩ := Option.isSome_iff_exists.1 h
  rw [State.inByte, State.inByte, State.srcOp_redrawn hsrc, State.byteAt_written hv]
  exact State.byteAt_written (s := s.redrawn d) hv

theorem State.inBytes_redrawn {n : Nat} (hsrc : s.src.known = true) (h : s.InputWritten n) :
    (s.redrawn d).inBytes 0 n = s.inBytes 0 n :=
  List.map_congr_left fun i hi => by
    rw [Nat.zero_add]
    exact State.inByte_redrawn hsrc (h i (List.mem_range.1 hi))

theorem State.output_redrawn (hdst : s.dst.known = true) (i : Nat) (vs : List Byte) :
    (s.redrawn d).output i vs = (s.output i vs).redrawn d := by
  rw [State.output, State.dstOp_redrawn hdst]
  rfl

/-! ## The DICT entries an expansion needs -/

/-- R177, R242: the first `room` bytes of an expansion depend on no entry but those `runEntries` lists. -/
theorem take_expand_congr {D D' : BitVec 4 → Byte} {room : Nat} {bs : List Byte}
    (h : ∀ n ∈ runEntries room bs, D n = D' n) : (expand D bs).take room = (expand D' bs).take room := by
  induction room, bs using runEntries.induct with
  | case1 room => rfl
  | case2 room b => rfl
  | case3 b B r => rw [List.take_zero, List.take_zero]
  | case4 room r hroom ih =>
    have hentries : runEntries room (0x07#8 :: 0x00#8 :: r) = runEntries (room - 1) r := by
      rw [runEntries, if_neg hroom, if_pos rfl, if_pos rfl]
    rw [expand_esclit, expand_esclit, List.take_cons (by omega), List.take_cons (by omega), ih (hentries ▸ h)]
  | case5 room B r hroom hB hcount ih =>
    have hentries : runEntries room (0x07#8 :: B :: r) = runEntries room r := by
      rw [runEntries, if_neg hroom, if_pos rfl, if_neg hB, if_pos hcount]
    rw [expand_run _ hB, expand_run _ hB, hcount]
    exact ih (hentries ▸ h)
  | case6 room B r hroom hB hcount ih =>
    have hentries : runEntries room (0x07#8 :: B :: r) =
        lowNibble B :: runEntries (room - (highNibble B).toNat) r := by
      rw [runEntries, if_neg hroom, if_pos rfl, if_neg hB, if_neg hcount]
    rw [hentries, List.forall_mem_cons] at h
    obtain ⟨hentry, hrest⟩ := h
    rw [expand_run _ hB, expand_run _ hB, List.take_append, List.take_append, List.length_replicate,
      List.length_replicate, hentry, ih hrest]
  | case7 room b B r hroom hb ih =>
    have hentries : runEntries room (b :: B :: r) = runEntries (room - 1) (B :: r) := by
      rw [runEntries, if_neg hroom, if_neg hb]
    rw [expand_lit _ hb, expand_lit _ hb, List.take_cons (by omega), List.take_cons (by omega), ih (hentries ▸ h)]

/-! ## The payload commands under another draw

None of them leaves a free value behind: each goes on to the same state but for the draw. -/

theorem execCksum_redrawn (hsrc : s.src.known = true) (hlen : s.len.known = true) (hin : s.InputWritten s.lenOp)
    (h : execCksum s = .next t) : execCksum (s.redrawn d) = .next (t.redrawn d) := by
  obtain ⟨hrange, rfl⟩ := execCksum_next h
  rw [execCksum_runs (State.inputInRange_redrawn hsrc hlen hrange), State.lenOp_redrawn hlen,
    State.inBytes_redrawn hsrc hin]
  rfl

theorem execStep_redrawn (hlfsr : s.lfsr.known = true) (h : execStep s = .next t) :
    execStep (s.redrawn d) = .next (t.redrawn d) := by
  cases h
  rw [execStep, State.lfsrOp_redrawn hlfsr]
  rfl

theorem execDecrypt_redrawn (hkey : s.key.known = true) (hsrc : s.src.known = true) (hlen : s.len.known = true)
    (hdst : s.dst.known = true) (hcap : s.cap.known = true) (hin : s.InputWritten (min s.lenOp s.capOp))
    (h : execDecrypt s = .next t) : execDecrypt (s.redrawn d) = .next (t.redrawn d) := by
  obtain ⟨hl, -⟩ := execDecrypt_next h
  cases (execDecrypt_eq_decrypted hl).symm.trans h
  rw [execDecrypt_eq_decrypted ((sameRegions_redrawn hsrc hlen hdst hcap).launchable hl), State.decrypted,
    State.cipherInput, State.keyOp_redrawn hkey, State.lenOp_redrawn hlen, State.capOp_redrawn hcap,
    State.inBytes_redrawn hsrc hin, State.output_redrawn hdst]
  rfl

/-- R176, R242: DECOMP writes the same bytes. -/
theorem State.remainder_redrawn (hsrc : s.src.known = true) (hlen : s.len.known = true) (hcap : s.cap.known = true)
    (hin : s.InputWritten s.lenOp) (hdict : ∀ n ∈ runEntries s.capOp s.input, (s.dictEntry n).known = true) :
    (s.redrawn d).remainder ⟨0, 0⟩ = s.remainder ⟨0, 0⟩ := by
  have hinput : (s.redrawn d).input = s.input := by
    rw [State.input, State.lenOp_redrawn hlen, State.inBytes_redrawn hsrc hin, State.input]
  rw [State.remainder_start, State.remainder_start, hinput, State.capOp_redrawn hcap]
  exact take_expand_congr fun n hn => State.dictOp_redrawn (hdict n hn)

theorem execDecomp_redrawn (hsrc : s.src.known = true) (hlen : s.len.known = true) (hdst : s.dst.known = true)
    (hcap : s.cap.known = true) (hin : s.InputWritten s.lenOp)
    (hdict : ∀ n ∈ runEntries s.capOp s.input, (s.dictEntry n).known = true) (h : execDecomp s = .next t) :
    execDecomp (s.redrawn d) = .next (t.redrawn d) := by
  obtain ⟨hl, -⟩ := execDecomp_next h
  cases (execDecomp_eq_decompressed hl).symm.trans h
  rw [execDecomp_eq_decompressed ((sameRegions_redrawn hsrc hlen hdst hcap).launchable hl), State.decompressed,
    State.remainder_redrawn hsrc hlen hcap hin hdict, State.output_redrawn hdst]
  rfl

/-! ## Contents that agree wherever a value stands -/

/-- R42: two contents of a register that are both `unspecified`, or the same value. -/
def SameWhereHeld (c c' : Nat × Bool) : Prop := c'.2 = c.2 ∧ (c.2 = true → c' = c)

theorem SameWhereHeld.refl (c : Nat × Bool) : SameWhereHeld c c := ⟨rfl, fun _ => rfl⟩

theorem SameWhereHeld.of_eq {c c' : Nat × Bool} (h : c' = c) : SameWhereHeld c c' := h ▸ .refl c

/-- What stands behind two marks may differ. -/
theorem SameWhereHeld.of_unspecified {c c' : Nat × Bool} (h : c.2 = false) (h' : c'.2 = false) :
    SameWhereHeld c c' :=
  ⟨h'.trans h.symm, fun hknown => absurd (hknown.symm.trans h) nofun⟩

/-- The draw is no register. -/
@[simp] theorem State.content_redrawn (r : Reg) : (s.redrawn d).content r = s.content r := by cases r <;> rfl

/-- R35: CKMATCH is `unspecified` while CKVAL is. -/
theorem State.ckmatch_unspecified (h : s.isUnspecified .ckval) : s.isUnspecified .ckmatch := by
  have hckval : s.ckval.known = false := h
  show (s.sum.known && s.ckval.known) = false
  rw [hckval, Bool.and_false]

/-- R130: two rejections with one cause differ only behind marks. -/
theorem RejectedTo.sameWhereHeld {s' t' : State} {cause : BitVec 3} (h : RejectedTo s t cause)
    (h' : RejectedTo s' t' cause) (hs : ∀ r, s'.content r = s.content r) (r : Reg) :
    SameWhereHeld (t.content r) (t'.content r) := by
  by_cases hr : r ∈ recordRegs
  case neg => exact .of_eq ((h'.frame.regs_same r hr).trans ((hs r).trans (h.frame.regs_same r hr).symm))
  cases r with
  | valid => exact .of_eq (by rw [State.content, State.content, h.valid, h'.valid])
  | rej => exact .of_eq (by rw [State.content, State.content, h.rej, h'.rej])
  | comp | enc | csum | hlen | ckval => exact .of_unspecified (h.others _ (by decide)) (h'.others _ (by decide))
  | ckmatch =>
    exact .of_unspecified (State.ckmatch_unspecified (h.others _ (by decide)))
      (State.ckmatch_unspecified (h'.others _ (by decide)))
  | dict i => exact .of_unspecified (h.dict i) (h'.dict i)
  | cmd | key | lfsr | sum | src | len | dst | cap | rlen => exact absurd hr (by decide)

/-- R127: two acceptances of one header differ only in the fields that the header does not have. -/
theorem State.accept_redrawn_sameWhereHeld (h : Header) (r : Reg) :
    SameWhereHeld ((s.accept h).content r) (((s.redrawn d).accept h).content r) := by
  cases r with
  | ckval =>
    cases hk : h.cksum with
    | none => exact .of_unspecified (State.accept_ckval_unspecified hk) (State.accept_ckval_unspecified hk)
    | some k => exact .of_eq ((State.accept_content_ckval hk).trans (State.accept_content_ckval hk).symm)
  | ckmatch =>
    cases hk : h.cksum with
    | none =>
      exact .of_unspecified (State.ckmatch_unspecified (State.accept_ckval_unspecified hk))
        (State.ckmatch_unspecified (State.accept_ckval_unspecified hk))
    | some k => exact .of_eq (by simp only [State.content, State.accept, State.accepted, hk]; rfl)
  | dict i =>
    cases hd : h.dict with
    | none => exact .of_unspecified (State.accept_dict_unspecified hd i) (State.accept_dict_unspecified hd i)
    | some dict => exact .of_eq ((State.accept_content_dict hd i).trans (State.accept_content_dict hd i).symm)
  | cmd | key | lfsr | sum | src | len | dst | cap | rlen | valid | comp | enc | csum | hlen | rej => exact .refl _

/-! ## All five commands -/

/-- R42: what a command leaves under one draw agrees with what it leaves under another. -/
structure SameResult (t t' : State) : Prop where
  mem : t'.mem = t.mem
  held : ∀ r, SameWhereHeld (t.content r) (t'.content r)

theorem sameResult_redrawn (t : State) (d : Nat) : SameResult t (t.redrawn d) :=
  ⟨rfl, fun r => .of_eq (State.content_redrawn r)⟩

/-- R131, R242: PARSE decodes the same header bytes, so it ends alike. -/
theorem execParse_redrawn (hsrc : s.src.known = true) (hlen : s.len.known = true)
    (hin : s.InputWritten (min s.lenOp 22)) (h : execParse s = .next t) :
    ∃ t', execParse (s.redrawn d) = .next t' ∧ SameResult t t' := by
  obtain ⟨hrange, -⟩ := launchIn_next h
  have hrange' : (s.redrawn d).InputInRange := State.inputInRange_redrawn hsrc hlen hrange
  have hbytes : (s.redrawn d).headerBytes = s.headerBytes := by
    rw [State.headerBytes, State.lenOp_redrawn hlen, State.inBytes_redrawn hsrc hin, State.headerBytes]
  cases hdec : decodeHeader s.headerBytes with
  | error cause =>
    cases (execParse_of_error hrange hdec).symm.trans h
    exact ⟨_, execParse_of_error hrange' (hbytes ▸ hdec), rfl, (rejectedTo_reject s _).sameWhereHeld
      (rejectedTo_reject (s.redrawn d) _) State.content_redrawn⟩
  | ok hd =>
    cases (execParse_of_ok hrange hdec).symm.trans h
    exact ⟨_, execParse_of_ok hrange' (hbytes ▸ hdec), rfl, State.accept_redrawn_sameWhereHeld hd.1⟩

/-- R242: the same result for each of the five commands. -/
theorem exec_redrawn {i : Instr} (hi : i ∈ commands) (hw : OperandsWritten i s) (h : exec i s = .next t) :
    ∃ t', exec i (s.redrawn d) = .next t' ∧ SameResult t t' := by
  simp only [commands, List.mem_cons, List.not_mem_nil, or_false] at hi
  obtain rfl | rfl | rfl | rfl | rfl := hi
  · obtain ⟨hsrc, hlen, hin⟩ := hw
    exact execParse_redrawn hsrc hlen hin h
  · obtain ⟨hsrc, hlen, hin⟩ := hw
    exact ⟨_, execCksum_redrawn hsrc hlen hin h, sameResult_redrawn t d⟩
  · exact ⟨_, execStep_redrawn hw h, sameResult_redrawn t d⟩
  · obtain ⟨hkey, hsrc, hlen, hdst, hcap, hin⟩ := hw
    exact ⟨_, execDecrypt_redrawn hkey hsrc hlen hdst hcap hin h, sameResult_redrawn t d⟩
  · obtain ⟨hsrc, hlen, hdst, hcap, hin, hdict⟩ := hw
    exact ⟨_, execDecomp_redrawn hsrc hlen hdst hcap hin hdict h, sameResult_redrawn t d⟩

/-- Settles O35: every written operand is the same under the other draw, so the command does the same; only PARSE
leaves free values behind, and those behind marks. -/
theorem writtenOperandsFixResult : Obligations.WrittenOperandsFixResult := by
  intro i hi s t d hw h
  obtain ⟨t', ht', hmem, hheld⟩ := exec_redrawn hi hw h
  exact ⟨t', ht', hmem, hheld⟩

end Sys2Proof.Machine
end

section
/-! PROOFS. What each kind of step does (`spec/00_scope.md` R10 to R13): the command the host issues, the token at the
input cursor, the end of a stream, the idle core and the reset. -/

namespace Sys2Proof.Machine

variable {s t : State}

/-! ## The row HEADER -/

/-- Settles O10: the row is an acceptance, and HLEN is the number of bytes the encoder gives. -/
theorem headerAccepted : Obligations.HeaderAccepted := by
  intro h s
  refine ⟨s.accept h, rfl, rfl, rfl, State.accept_content_comp h, rfl, State.accept_content_csum h, ?hlen,
    fun d hd => State.accept_content_dict hd, fun hd => State.accept_dict_unspecified hd,
    fun k hk => State.accept_content_ckval hk, fun hk => State.accept_ckval_unspecified hk,
    frame_setRecord s _, quiet_setRecord s _⟩
  case hlen => rw [State.accept_content_hlen, ← length_encodeHeader, encode]

/-! ## Between two commands -/

/-- Settles O43: the step is the host's action, and the issue of a code runs its row in a new draw. -/
theorem stepRunsIssuedCommand : Obligations.StepRunsIssuedCommand := by
  intro s c rest hc hp
  calc step s = hostStep (.issue c) (s.setPending rest) := stepRunsHostAction s _ rest hc hp
    _ = exec (decodeCommand c) (s.setPending rest).nextDraw := hostStep_issue c _

/-- Settles O47: of the three things a step can be, the other two need cursors or a pending event. -/
theorem coreWaitsForHost : Obligations.CoreWaitsForHost := by
  intro s hc hp
  obtain ⟨c, hsome, -⟩ | ⟨-, -, hidle⟩ | ⟨e, rest, -, hcons, -⟩ := step_cases s
  · cases hc.symm.trans hsome
  · exact hidle
  · cases hp.symm.trans hcons

/-- R44, R240: a reset puts every register into the reset state. -/
theorem State.content_resetNow (r : Reg) : s.resetNow.content r = State.reset.content r := by
  cases r <;> rfl

/-- Settles O53: a pending reset is the step. -/
theorem resetEvent : Obligations.ResetEvent := by
  intro s rest hc hp
  refine ⟨(s.setPending rest).resetNow.nextDraw, step_of_pending_cons hc hp, fun r => ?_, rfl, rfl, rfl, rfl⟩
  rw [State.content_nextDraw, State.content_resetNow]

/-- Settles O54: the state at reset is a state just after a reset. -/
theorem resetMeetsInvariant : Obligations.ResetMeetsInvariant := State.reset.resetNow_inv

/-! ## Inside a DECOMP -/

/-- Settles O45: a turn with input and room left runs the token it decodes, and what is decoded is well-formed. -/
theorem stepRunsToken : Obligations.StepRunsToken := by
  intro s c tok rest hc hic hoc hdec
  obtain ⟨hwf, -, -⟩ := decodeToken_sound hdec
  refine ⟨?_, hwf⟩
  calc step s = tokenStep s c := step_of_cursors hc
    _ = execToken tok s := tokenStep_token ⟨hic, hoc⟩ hdec
    _ = exec tok.toInstr s := (exec_token tok s).symm

/-- R175: the end of a DECOMP changes RLEN alone. -/
theorem frame_finish (s : State) (c : Cursors) : Frame s (s.finish c) [.rlen] noBytes where
  regs_same := fun reg hreg => by
    cases reg with
    | rlen => exact absurd (by decide) hreg
    | cmd | key | lfsr | sum | src | len | dst | cap | valid | comp | enc | csum | ckval | hlen | rej | ckmatch
    | dict _ => rfl
  mem_same := fun _ _ => rfl

/-- Settles O46: without input or without room a turn ends the command. -/
theorem stepEndsStream : Obligations.StepEndsStream := by
  intro s c hc hend
  have hroom : ¬ (c.ic < s.lenOp ∧ c.oc < s.capOp) := by omega
  exact ⟨s.finish c, (step_of_cursors hc).trans (tokenStep_ends hroom), rfl, rfl, frame_finish s c, ⟨rfl, rfl, rfl⟩⟩

end Sys2Proof.Machine
end

section
/-! PROOFS. Commands are atomic (`spec/00_scope.md` R11): a step between commands leaves no cursors, and DECOMP as one
command is its turns run one by one. -/

namespace Sys2Proof.Machine

variable {s t : State}

/-- R11, R40: a command that starts without cursors ends without them. -/
theorem command_cursors_none {i : Instr} (hi : i ∈ commands) (hc : s.cursors = none) (h : exec i s = .next t) :
    t.cursors = none := by
  simp only [commands, List.mem_cons, List.not_mem_nil, or_false] at hi
  obtain rfl | rfl | rfl | rfl | rfl := hi
  · obtain ⟨cause, rfl⟩ | ⟨hd, rfl⟩ := execParse_next h
    · exact hc
    · exact hc
  · obtain ⟨-, rfl⟩ := execCksum_next h
    exact hc
  · cases h
    exact hc
  · obtain ⟨-, rfl⟩ := execDecrypt_next h
    exact hc
  · obtain ⟨hl, -⟩ := execDecomp_next h
    cases (execDecomp_eq_decompressed hl).symm.trans h
    rfl

/-- R190: a host action between commands ends between commands. -/
theorem hostAct_cursors_none {a : HostAction} (hc : s.cursors = none) (h : hostAct a s = .next t) :
    t.cursors = none := by
  obtain ⟨r, v, -, -, -, -, rfl⟩ | ⟨c, -, h⟩ | ⟨r, -, -, rfl⟩ | ⟨x, b, -, -, rfl⟩ | ⟨x, -, -, rfl⟩ := hostAct_next h
  · exact (quiet_writeReg s r v).cursors.trans hc
  · obtain hcmd | ⟨r, hr⟩ := decodeCommand_cases c
    · exact command_cursors_none hcmd hc h
    · rw [hr] at h
      cases h
  · exact hc
  · exact hc
  · exact hc

/-- Settles O56: between commands a step is idle, a host action or a reset. -/
theorem commandsAreAtomic : Obligations.CommandsAreAtomic := by
  intro s t hc h
  obtain ⟨c, hsome, -⟩ | ⟨-, -, e⟩ | ⟨ev, rest, -, -, e⟩ := step_cases s
  · cases hc.symm.trans hsome
  · cases e.symm.trans h
    exact hc
  · rw [e] at h
    cases ev with
    | act a => exact hostAct_cursors_none (s := (s.setPending rest).nextDraw) hc h
    | reset =>
      cases h
      rfl

/-- R13, R175: the loop of DECOMP is a run of steps, one for each of its turns. -/
theorem run_of_decompLoop {fuel : Nat} (h : decompLoop fuel s = .next t) :
    ∃ k, k ≤ fuel ∧ (Host.Core.run core k s : Result) = .next t := by
  induction fuel generalizing s with
  | zero => exact ⟨0, Nat.le_refl 0, h⟩
  | succ fuel ih =>
    cases hc : s.cursors with
    | none =>
      rw [decompLoop_of_ended _ hc] at h
      exact ⟨0, Nat.zero_le _, h⟩
    | some c =>
      rw [decompLoop_succ _ hc] at h
      obtain ⟨u, hu, h⟩ := andThen_eq_next h
      obtain ⟨k, hk, hrun⟩ := ih h
      exact ⟨k + 1, Nat.succ_le_succ hk, (run_succ_of_next ((step_of_cursors hc).trans hu) k).trans hrun⟩

/-- Settles O27: the command is its loop, the loop is a run of steps, and the closed form has no cursors. -/
theorem decompRunsItsTokens : Obligations.DecompRunsItsTokens := by
  intro s hl
  have hexec := execDecomp_eq_decompressed hl
  obtain ⟨k, hk, hrun⟩ := run_of_decompLoop ((execDecomp_runs hl).symm.trans hexec)
  exact ⟨k, _, hk, hexec, hrun, rfl⟩

end Sys2Proof.Machine
end

section
/-! PROOFS. A command on unspecified operands is the command on written operands of the drawn values
(`spec/93_implementation_defined.md` U5): what stands in the drawn state, and that every update a command makes leaves
the same state there but for the order in which MEM was written. -/

namespace Sys2Proof.Machine

variable {s t t' : State} {x : Nat}

/-! ## The drawn state -/

/-- The drawn state has the operands that a command draws. -/
theorem sameRegions_drawn (s : State) : SameRegions s s.drawn := ⟨rfl, rfl, rfl, rfl⟩

theorem State.dictEntry_drawn (i : BitVec 4) : s.drawn.dictEntry i = .put (s.dictOp i) := by
  show (table16 fun j => Held.put (s.dictOp (BitVec.ofNat 4 j)))[i.toNat]'i.isLt = _
  rw [table16_getElem _ _ i.isLt, BitVec.ofNat_toNat, BitVec.setWidth_eq]

theorem State.dictOp_drawn : s.drawn.dictOp = s.dictOp := by
  funext i
  rw [State.dictOp, State.dictEntry_drawn, Held.observe_known _ _ (Held.put_known _), Held.put_val]

/-- U5: in the input region of the drawn state the drawn bytes are written. -/
theorem State.read_drawn_inside (hx : bytesAt s.srcOp s.lenOp x) :
    Memory.read s.drawn.mem x = some (s.byteAt x) := by
  obtain ⟨hlo, hhi⟩ := hx
  obtain ⟨i, rfl⟩ := Nat.exists_eq_add_of_le hlo
  have hi : i < s.input.length := by rw [State.input, State.length_inBytes]; omega
  have hbyte : s.input[i] = s.byteAt (s.srcOp + i) := by simp [State.input, State.inByte]
  exact (Memory.read_writeBytes_inside s.mem s.srcOp s.input i hi).trans (congrArg some hbyte)

theorem State.read_drawn_outside (hx : ¬ bytesAt s.srcOp s.lenOp x) :
    Memory.read s.drawn.mem x = Memory.read s.mem x :=
  Memory.read_writeBytes_outside _ _ _ _ (by rwa [State.input, State.length_inBytes])

/-- Every byte is the one a command draws, written or not. -/
theorem State.byteAt_drawn : s.drawn.byteAt x = s.byteAt x := by
  by_cases hx : bytesAt s.srcOp s.lenOp x
  · exact State.byteAt_written (State.read_drawn_inside hx)
  · exact State.byteAt_congr (State.read_drawn_outside hx) rfl

theorem State.inBytes_drawn (i n : Nat) : s.drawn.inBytes i n = s.inBytes i n :=
  List.map_congr_left fun _ _ => State.byteAt_drawn

theorem State.inputWritten_drawn {n : Nat} (hn : n ≤ s.lenOp) : s.drawn.InputWritten n := by
  intro i hi
  have hx : bytesAt s.srcOp s.lenOp (s.srcOp + i) := ⟨by omega, by omega⟩
  exact Option.isSome_iff_exists.2 ⟨_, State.read_drawn_inside hx⟩

/-- R242: in the drawn state the operands of every command are written. -/
theorem operandsWritten_drawn {i : Instr} (hi : i ∈ commands) (s : State) : OperandsWritten i s.drawn := by
  simp only [commands, List.mem_cons, List.not_mem_nil, or_false] at hi
  obtain rfl | rfl | rfl | rfl | rfl := hi
  · exact ⟨rfl, rfl, State.inputWritten_drawn (Nat.min_le_left _ _)⟩
  · exact ⟨rfl, rfl, State.inputWritten_drawn (Nat.le_refl _)⟩
  · exact rfl
  · exact ⟨rfl, rfl, rfl, rfl, rfl, State.inputWritten_drawn (Nat.min_le_left _ _)⟩
  · exact ⟨rfl, rfl, rfl, rfl, State.inputWritten_drawn (Nat.le_refl _), fun n _ => by
      rw [State.dictEntry_drawn, Held.put_known]⟩

/-! ## States that are the same once what is unspecified is drawn -/

/-- The two states have the same drawn state, but for the list their memories are kept in: each cell reads alike. -/
def SameDrawn (t t' : State) : Prop :=
  ∃ m, t'.drawn = t.drawn.setMem m ∧ ∀ x, Memory.read m x = Memory.read t.drawn.mem x

theorem SameDrawn.frame (h : SameDrawn t t') : Frame t.drawn t'.drawn [] noBytes := by
  obtain ⟨m, e, hm⟩ := h
  rw [e]
  exact ⟨fun r _ => State.content_setMem m r, fun x _ => hm x⟩

/-- Equal bytes, and equal cells outside the input region, are what the drawn memory is made from. -/
theorem State.read_drawn_congr (e : SameRegions t t') (hbyte : t'.byteAt x = t.byteAt x)
    (hcell : ¬ bytesAt t.srcOp t.lenOp x → Memory.read t'.mem x = Memory.read t.mem x) :
    Memory.read t'.drawn.mem x = Memory.read t.drawn.mem x := by
  by_cases hx : bytesAt t.srcOp t.lenOp x
  · have hx' : bytesAt t'.srcOp t'.lenOp x := by rwa [e.src, e.len]
    rw [State.read_drawn_inside hx, State.read_drawn_inside hx', hbyte]
  · have hx' : ¬ bytesAt t'.srcOp t'.lenOp x := by rwa [e.src, e.len]
    rw [State.read_drawn_outside hx, State.read_drawn_outside hx', hcell hx]

/-- Drawing a second time changes no register. -/
theorem State.drawn_drawn (s : State) : s.drawn.drawn = s.drawn.setMem s.drawn.drawn.mem := by
  show { s.drawn with
    dict := table16 fun i => .put (s.drawn.dictOp (BitVec.ofNat 4 i)), mem := s.drawn.drawn.mem } = _
  rw [State.dictOp_drawn]
  rfl

/-- R62: bytes written into the output region stand over what was there, drawn or not. -/
theorem State.byteAt_output_drawn (i : Nat) (vs : List Byte) :
    (s.drawn.output i vs).byteAt x = (s.output i vs).byteAt x := by
  by_cases hx : bytesAt (s.dstOp + i) vs.length x
  · obtain ⟨hlo, hhi⟩ := hx
    obtain ⟨j, rfl⟩ := Nat.exists_eq_add_of_le hlo
    have hj : j < vs.length := by omega
    rw [State.byteAt_written (s.output_inside i vs j hj)]
    exact State.byteAt_written (s.drawn.output_inside i vs j hj)
  · calc (s.drawn.output i vs).byteAt x = s.drawn.byteAt x := State.byteAt_congr (State.output_outside i vs x hx) rfl
      _ = s.byteAt x := State.byteAt_drawn
      _ = (s.output i vs).byteAt x := (State.byteAt_congr (State.output_outside i vs x hx) rfl).symm

theorem sameDrawn_output (s : State) (i : Nat) (vs : List Byte) : SameDrawn (s.output i vs) (s.drawn.output i vs) := by
  have hregs :=
    calc (s.drawn.output i vs).drawn = s.drawn.drawn.setMem (s.drawn.output i vs).drawn.mem := rfl
      _ = (s.output i vs).drawn.setMem (s.drawn.output i vs).drawn.mem := by rw [s.drawn_drawn]; rfl
  refine ⟨_, hregs, fun x => State.read_drawn_congr ⟨rfl, rfl, rfl, rfl⟩ (State.byteAt_output_drawn i vs) fun hx => ?_⟩
  show Memory.read (Memory.writeBytes s.drawn.mem (s.dstOp + i) vs) x =
    Memory.read (Memory.writeBytes s.mem (s.dstOp + i) vs) x
  rw [Memory.read_writeBytes, Memory.read_writeBytes, State.read_drawn_outside (s := s) hx]

theorem sameDrawn_drawn (s : State) : SameDrawn s s.drawn :=
  ⟨_, s.drawn_drawn, fun _ =>
    State.read_drawn_congr (sameRegions_drawn s) State.byteAt_drawn State.read_drawn_outside⟩

theorem sameDrawn_setRecord (s : State) (r : Record) : SameDrawn (s.setRecord r) (s.drawn.setRecord r) :=
  ⟨_, rfl, fun _ => State.read_drawn_congr (t := s.setRecord r) (t' := s.drawn.setRecord r) ⟨rfl, rfl, rfl, rfl⟩
    State.byteAt_drawn State.read_drawn_outside⟩

/-! An update of a register with one value, in both states. -/

theorem SameDrawn.setSum (h : SameDrawn t t') (v : Held Word) : SameDrawn (t.setSum v) (t'.setSum v) := by
  obtain ⟨m, e, hm⟩ := h
  exact ⟨m, congrArg (State.setSum · v) e, hm⟩

theorem SameDrawn.setLfsr (h : SameDrawn t t') (v : Word) : SameDrawn (t.setLfsr (.put v)) (t'.setLfsr (.put v)) := by
  obtain ⟨m, e, hm⟩ := h
  exact ⟨m, congrArg (State.setLfsr · (.put v)) e, hm⟩

theorem SameDrawn.setRlen (h : SameDrawn t t') (v : Held Nat) : SameDrawn (t.setRlen v) (t'.setRlen v) := by
  obtain ⟨m, e, hm⟩ := h
  exact ⟨m, congrArg (State.setRlen · v) e, hm⟩

theorem SameDrawn.setCursors (h : SameDrawn t t') (c : Option Cursors) :
    SameDrawn (t.setCursors c) (t'.setCursors c) := by
  obtain ⟨m, e, hm⟩ := h
  exact ⟨m, congrArg (State.setCursors · c) e, hm⟩

/-! ## The five commands -/

/-- U5: both outcomes go on, to states that are the same once drawn, or both are the same refusal. -/
inductive SameOutcome : Result → Result → Prop
  | next {t t' : State} (h : SameDrawn t t') : SameOutcome (.next t) (.next t')
  | refused (r : Refusal) : SameOutcome (.refused r) (.refused r)

theorem SameOutcome.next_left {o' : Result} (h : SameOutcome (.next t) o') : ∃ t', o' = .next t' ∧ SameDrawn t t' := by
  cases h with
  | next h => exact ⟨_, rfl, h⟩

theorem SameOutcome.refused_left {r : Refusal} {o' : Result} (h : SameOutcome (.refused r) o') : o' = .refused r := by
  cases h
  rfl

theorem State.headerBytes_drawn : s.drawn.headerBytes = s.headerBytes := State.inBytes_drawn 0 _

/-- R129: PARSE decodes the same header bytes, and a record is made from the decoded header and the draw alone. -/
theorem execParse_drawn (s : State) : SameOutcome (execParse s) (execParse s.drawn) := by
  by_cases hin : s.InputInRange
  · rw [execParse_runs hin, execParse_runs (s := s.drawn) hin, State.headerBytes_drawn]
    cases decodeHeader s.headerBytes with
    | error cause => exact .next (sameDrawn_setRecord s (s.rejected cause.code))
    | ok hd => exact .next (sameDrawn_setRecord s (s.accepted hd.1))
  · rw [execParse_outOfRange hin, execParse_outOfRange (s := s.drawn) hin]
    exact .refused _

theorem execCksum_drawn (s : State) : SameOutcome (execCksum s) (execCksum s.drawn) := by
  by_cases hin : s.InputInRange
  · rw [execCksum_runs hin, execCksum_runs (s := s.drawn) hin, State.inBytes_drawn]
    exact .next ((sameDrawn_drawn s).setSum _)
  · rw [execCksum_outOfRange hin, execCksum_outOfRange (s := s.drawn) hin]
    exact .refused _

theorem execStep_drawn (s : State) : SameOutcome (execStep s) (execStep s.drawn) :=
  .next ((sameDrawn_drawn s).setLfsr _)

theorem State.sameDrawn_decrypted (s : State) : SameDrawn s.decrypted s.drawn.decrypted := by
  have hinput : s.drawn.cipherInput = s.cipherInput := State.inBytes_drawn 0 _
  rw [State.decrypted, State.decrypted, hinput]
  exact ((sameDrawn_output s 0 _).setLfsr _).setRlen _

theorem execDecrypt_drawn (s : State) : SameOutcome (execDecrypt s) (execDecrypt s.drawn) := by
  obtain hl | ⟨hrange, e⟩ | ⟨⟨hin, hout, hoverlap⟩, e⟩ := execDecrypt_cases s
  · rw [execDecrypt_eq_decrypted hl, execDecrypt_eq_decrypted ((sameRegions_drawn s).launchable hl)]
    exact .next s.sameDrawn_decrypted
  · rw [e, execDecrypt_outOfRange (s := s.drawn) hrange]
    exact .refused _
  · rw [e, execDecrypt_overlap (s := s.drawn) hin hout hoverlap]
    exact .refused _

theorem State.sameDrawn_decompressed (s : State) : SameDrawn (s.decompressed ⟨0, 0⟩) (s.drawn.decompressed ⟨0, 0⟩) := by
  have hdict : s.drawn.dictBytes = s.dictBytes := State.dictOp_drawn
  have hinput : s.drawn.input = s.input := State.inBytes_drawn 0 _
  have hrem : s.drawn.remainder ⟨0, 0⟩ = s.remainder ⟨0, 0⟩ := by
    rw [State.remainder_start, State.remainder_start, hdict, hinput]
    rfl
  rw [State.decompressed, State.decompressed, hrem]
  exact ((sameDrawn_output s 0 _).setRlen _).setCursors _

theorem execDecomp_drawn (s : State) : SameOutcome (execDecomp s) (execDecomp s.drawn) := by
  obtain hl | ⟨hrange, e⟩ | ⟨⟨hin, hout, hoverlap⟩, e⟩ := execDecomp_cases s
  · rw [execDecomp_eq_decompressed hl, execDecomp_eq_decompressed ((sameRegions_drawn s).launchable hl)]
    exact .next s.sameDrawn_decompressed
  · rw [e, execDecomp_outOfRange (s := s.drawn) hrange]
    exact .refused _
  · rw [e, execDecomp_overlap (s := s.drawn) hin hout hoverlap]
    exact .refused _

theorem exec_drawn {i : Instr} (hi : i ∈ commands) (s : State) : SameOutcome (exec i s) (exec i s.drawn) := by
  simp only [commands, List.mem_cons, List.not_mem_nil, or_false] at hi
  obtain rfl | rfl | rfl | rfl | rfl := hi
  · exact execParse_drawn s
  · exact execCksum_drawn s
  · exact execStep_drawn s
  · exact execDecrypt_drawn s
  · exact execDecomp_drawn s

/-- Settles O34: each command has the same outcome from the drawn state, in which its operands are written. -/
theorem unwrittenOperandsAreDrawn : Obligations.UnwrittenOperandsAreDrawn := by
  intro i hi s
  have hsame := exec_drawn hi s
  refine ⟨operandsWritten_drawn hi s, fun t ht => ?next, fun r hr => ?refused⟩
  case next =>
    obtain ⟨t', ht', h⟩ := (ht ▸ hsame).next_left
    exact ⟨t', ht', h.frame⟩
  case refused => exact (hr ▸ hsame).refused_left

end Sys2Proof.Machine
end
